-- ==== Sys2Proof/Word.lean ====
section
/-! DEFINITION. The widths APX-CORE works with, and its bit sequences (spec/00_scope.md R14, R15). -/

namespace Sys2Proof

/-- The 32-bit values of the result registers, `ERR_INFO`, the counters and `imm` (R21, R23, R42, R81). -/
abbrev Word := BitVec 32

/-- One byte of the transport, of the mask text, or of a small operand (R47, R31, R81). -/
abbrev Byte := BitVec 8

/-- One command on the command port: format C64 (R80, R81). -/
abbrev CommandWord := BitVec 64

/-- A bit sequence: index 0 is the first bit, the first to be serialized (R15). -/
abbrev Bits := List Bool

/-- The number of one bit: 1 or 0 (R14). -/
def bitValue (b : Bool) : Nat := if b then 1 else 0

/-- `zeros(n)` (R15). -/
abbrev zeros (n : Nat) : Bits := List.replicate n false

/-- `ones(n)` (R15). -/
abbrev ones (n : Nat) : Bits := List.replicate n true

/-- The bit order of one use of the codec (R62, R100). -/
inductive BitOrder where
  | msb
  | lsb
  deriving DecidableEq, Repr

end Sys2Proof
end

