-- ==== Sys2Proof/Config.lean ====
section
/-! DEFINITION. What an implementation of APX-CORE fixes: the parameters of spec/00_scope.md R12 with their
reference values, and the values that nothing fixes (the environment's draws, the checksum predicate), which
have no body. -/

namespace Sys2Proof

/-- `N_ROW`, fixed by the document's 35 by 35 mask (R13). -/
abbrev nRow : Nat := 35

/-- `N_COL` (R13). -/
abbrev nCol : Nat := 35

/-- The number of mask bits, `N_ROW * N_COL` (R69, R103). -/
abbrev maskBits : Nat := 1225

/-- The capacity of the mask text store, in bytes (R31, R132). -/
abbrev mtxtCap : Nat := 1261

/-- One row of a half of `LAYOUT`; its key id is its index in the half (R120). -/
structure LayoutRow where
  names : List String
  offset : Nat
  width : Nat
  defaultCode : Nat
  deriving DecidableEq, Repr

/-- `LAYOUT`: the bias half and the DAC half (R120). -/
structure Layout where
  bias : List LayoutRow
  dac : List LayoutRow
  deriving DecidableEq, Repr

/-- A field `(off, w)` of a readout frame's payload bits (R166). -/
structure FieldSlot where
  off : Nat
  w : Nat
  deriving DecidableEq, Repr

/-- `FRAME`, the readout frame table (R166). -/
structure FrameTable where
  hasStart : Bool
  start : Byte
  hasEnd : Bool
  endMark : Byte
  payloadLen : Nat
  col : FieldSlot
  row : FieldSlot
  toa : FieldSlot
  tot : FieldSlot
  deriving DecidableEq, Repr

/-- The implementation parameters, one field per row of R12 (but `N_ROW` and `N_COL`, which R13 fixes).
`checksum` names the frame checksum predicate as plain data: `none` is the reference predicate, which is
always true, and `some k` is the `k`-th predicate of `Config.checksumPredicate`, of which nothing is known. -/
structure Params where
  wMax : Nat
  bbCap : Nat
  orderCfg : BitOrder
  orderFrame : BitOrder
  layout : Layout
  analogPattern : Bits
  frame : FrameTable
  rxThresh : Nat
  hitqCap : Nat
  nSlots : Nat
  vbNdac : Nat
  vbW : Nat
  vbDefault : List Nat
  respLen : Nat
  injDacW : Nat
  wPer : Nat
  wDiv : Nat
  wDly : Nat
  wDuty : Nat
  wCyc : Nat
  checksum : Option Nat
  deriving DecidableEq, Repr

/-- `LAYOUT_REF` (R123). -/
def layoutRef : Layout where
  bias := [⟨["vcasp"], 0, 8, 40⟩, ⟨["vcasn"], 8, 8, 20⟩]
  dac := [⟨["threshold", "thresholdDAC"], 16, 8, 100⟩]

/-- `FRAME_REF` (R167). -/
def frameRef : FrameTable where
  hasStart := true
  start := 0xAA#8
  hasEnd := true
  endMark := 0xBB#8
  payloadLen := 3
  col := ⟨0, 8⟩
  row := ⟨8, 8⟩
  toa := ⟨24, 0⟩
  tot := ⟨16, 8⟩

/-- The reference value of every parameter (the column "reference value" of R12). -/
def Params.reference : Params where
  wMax := 32
  bbCap := 2048
  orderCfg := .msb
  orderFrame := .msb
  layout := layoutRef
  analogPattern := ones maskBits
  frame := frameRef
  rxThresh := 0
  hitqCap := 256
  nSlots := 8
  vbNdac := 8
  vbW := 14
  vbDefault := List.replicate 8 0
  respLen := 1
  injDacW := 14
  wPer := 8
  wDiv := 16
  wDly := 16
  wDuty := 8
  wCyc := 16
  checksum := none

/-- How the environment answers one transport call: it succeeds, or it fails after `n` bytes of it (R10's
`TxOutcome` and `RxOutcome`; R141's `fail(k)`, R142's `fail(j)`). An `n` above the call's length stands for
the whole length. -/
inductive TransportOutcome where
  | ok
  | fail (n : Nat)
  deriving DecidableEq, Repr, Inhabited

/-- FREE VALUE: the answer to the `n`-th transport write that no answer was placed for in the state
(U16, U17: whether a call fails and after how many bytes is the environment's choice and no rule
constrains it). No body: nothing can be proved of it. -/
opaque Config.freeTxOutcome : Nat → TransportOutcome

/-- FREE VALUE: the same for transport reads (U16, U17). -/
opaque Config.freeRxOutcome : Nat → TransportOutcome

/-- FREE VALUE: the checksum predicates an implementation may have, by number (U10, R12 `checksum_ok`: "total
function of the payload bytes"). No body: nothing can be proved of any of them. -/
opaque Config.checksumPredicate : Nat → List Byte → Bool

end Sys2Proof
end

