-- ==== Sys2Proof/Syntax.lean ====
section
/-! DEFINITION. The 25 commands of APX-CORE (spec/30_encoding.md R83), one constructor per row of
spec/opcode_table.json, with the operands R82 reads from the command word. -/

namespace Sys2Proof

/-- The kind bit of CFG.SET: which half of `LAYOUT` a key belongs to (R82, R131). -/
inductive Half where
  | dac
  | bias
  deriving DecidableEq, Repr

/-- The eight fields of the InjectionConfig, in the order of their ids 0 to 7 (R34). -/
inductive InjField where
  | amplitude
  | offset
  | position
  | period
  | clkdiv
  | delay
  | duty
  | cycles
  deriving DecidableEq, Repr

/-- The commands (R83). `w`, `key`, `c`, `ch`, `slot` and `addr` are the field `a`; `v`, `value`, `errmax`,
`code` and `n` are the field `imm` (R81). -/
inductive Instr where
  | pack (w : Byte) (o : BitOrder) (v : Word)
  | unpack (w : Byte) (o : BitOrder)
  | bbClr
  | maskPack
  | cfgClr
  | cfgSet (half : Half) (key : Byte) (value : Word)
  | maskPut (c : Byte)
  | maskNone
  | cfgEncode
  | sessInit (maxrunsEn : Bool) (maxruns : BitVec 16) (errmax : Word)
  | asicInit
  | vbSet (ch : Byte) (code : Word)
  | vbInit (slot : Byte)
  | regRead (addr : Byte)
  | spiEnable
  | sessClose
  | rdProbe
  | rdPoll (n : Word)
  | hitPop
  | injSet (f : InjField) (v : Word)
  | injInit
  | injStart
  | injStop
  | errRecord
  | errExceeded
  deriving DecidableEq, Repr

end Sys2Proof
end

