-- ==== Sys2Proof/WellFormed.lean ====
section
/-! DEFINITION. Which terms of `Instr` are legal commands of an implementation with parameters `p`. The operand
types of `Instr` carry every bound of spec/30_encoding.md R82 and R83; the one check left is R85 case 3, the
width of PACK and UNPACK. An operand that is encodable but not valid (a key outside its table, a value that does
not fit) is no illegal command (R86): its command raises the error of its own rule. -/

namespace Sys2Proof

/-- R85 case 3: PACK and UNPACK take a width of at most `W_MAX`. -/
def Instr.wellFormed (p : Params) : Instr → Bool
  | .pack w _ _ => decide (w.toNat ≤ p.wMax)
  | .unpack w _ => decide (w.toNat ≤ p.wMax)
  | .bbClr => true
  | .maskPack => true
  | .cfgClr => true
  | .cfgSet _ _ _ => true
  | .maskPut _ => true
  | .maskNone => true
  | .cfgEncode => true
  | .sessInit _ _ _ => true
  | .asicInit => true
  | .vbSet _ _ => true
  | .vbInit _ => true
  | .regRead _ => true
  | .spiEnable => true
  | .sessClose => true
  | .rdProbe => true
  | .rdPoll _ => true
  | .hitPop => true
  | .injSet _ _ => true
  | .injInit => true
  | .injStart => true
  | .injStop => true
  | .errRecord => true
  | .errExceeded => true

end Sys2Proof
end

