-- ==== Sys2Proof/Decode.lean ====
section
/-! DEFINITION. The command decoder and the encoder (spec/30_encoding.md R81 to R85, R87). -/

namespace Sys2Proof

/-- Why a word is no command: R85 case 1 and case 2. (Case 3, the width of PACK and UNPACK, depends on the
parameter `W_MAX` and is the first check of those two commands' rules, R105 and R107.) -/
inductive Illegal where
  /-- R85 case 1: `op` is none of the 25 opcodes. -/
  | unknownOpcode
  /-- R85 case 2: a bit that R83 reserves is 1. -/
  | reservedBit
  deriving DecidableEq, Repr

/-- Field `op`, bits 63:56 (R81). -/
def fieldOp (x : CommandWord) : Byte := x.extractLsb' 56 8

/-- Field `a`, bits 55:48 (R81). -/
def fieldA (x : CommandWord) : Byte := x.extractLsb' 48 8

/-- Field `b`, bits 47:32 (R81). -/
def fieldB (x : CommandWord) : BitVec 16 := x.extractLsb' 32 16

/-- Field `imm`, bits 31:0 (R81). -/
def fieldImm (x : CommandWord) : Word := x.extractLsb' 0 32

/-- The word with the four fields of format C64 (R81). -/
def assembleWord (op a : Byte) (b : BitVec 16) (imm : Word) : CommandWord := op ++ a ++ b ++ imm

/-- The order bit `o = b[0]`: 1 is `MSB`, 0 is `LSB` (R82). -/
def orderOfBit (b : BitVec 16) : BitOrder := if b.getLsbD 0 then .msb else .lsb

/-- The order bit as field `b` (R82). -/
def orderField : BitOrder → BitVec 16
  | .msb => 1#16
  | .lsb => 0#16

/-- The kind bit `kind = b[0]`: 0 is DAC, 1 is bias (R82). -/
def halfOfBit (b : BitVec 16) : Half := if b.getLsbD 0 then .bias else .dac

/-- The kind bit as field `b` (R82). -/
def halfField : Half → BitVec 16
  | .dac => 0#16
  | .bias => 1#16

/-- The INJ.SET field id `a[2:0]` (R82, R34). -/
def injFieldOf (a : Byte) : InjField :=
  match (a.extractLsb' 0 3).toNat with
  | 0 => .amplitude
  | 1 => .offset
  | 2 => .position
  | 3 => .period
  | 4 => .clkdiv
  | 5 => .delay
  | 6 => .duty
  | _ => .cycles

/-- The id of an injection field as field `a` (R34, R82). -/
def injFieldId : InjField → Byte
  | .amplitude => 0#8
  | .offset => 1#8
  | .position => 2#8
  | .period => 3#8
  | .clkdiv => 4#8
  | .delay => 5#8
  | .duty => 6#8
  | .cycles => 7#8

/-- A command whose reserved bits are these: legal only when all of them are 0 (R85 case 2). The three masks
are the reserved bits of `a`, of `b` and of `imm` (the zeros of R83's table). -/
def withReserved (a : Byte) (b : BitVec 16) (imm : Word) (ra : Byte) (rb : BitVec 16) (ri : Word) (i : Instr) :
    Except Illegal Instr :=
  if a &&& ra = 0#8 ∧ b &&& rb = 0#16 ∧ imm &&& ri = 0#32 then .ok i else .error .reservedBit

/-- R83's table, row by row: match `op`, then check the reserved fields. -/
def decodeFields (op a : Byte) (b : BitVec 16) (imm : Word) : Except Illegal Instr :=
  match op with
  | 0x01#8 => withReserved a b imm 0x00#8 0xFFFE#16 0x00000000#32 (.pack a (orderOfBit b) imm)
  | 0x02#8 => withReserved a b imm 0x00#8 0xFFFE#16 0xFFFFFFFF#32 (.unpack a (orderOfBit b))
  | 0x03#8 => withReserved a b imm 0xFF#8 0xFFFF#16 0xFFFFFFFF#32 .bbClr
  | 0x04#8 => withReserved a b imm 0xFF#8 0xFFFF#16 0xFFFFFFFF#32 .maskPack
  | 0x10#8 => withReserved a b imm 0xFF#8 0xFFFF#16 0xFFFFFFFF#32 .cfgClr
  | 0x11#8 => withReserved a b imm 0x00#8 0xFFFE#16 0x00000000#32 (.cfgSet (halfOfBit b) a imm)
  | 0x12#8 => withReserved a b imm 0x00#8 0xFFFF#16 0xFFFFFFFF#32 (.maskPut a)
  | 0x13#8 => withReserved a b imm 0xFF#8 0xFFFF#16 0xFFFFFFFF#32 .maskNone
  | 0x14#8 => withReserved a b imm 0xFF#8 0xFFFF#16 0xFFFFFFFF#32 .cfgEncode
  | 0x20#8 => withReserved a b imm 0xFE#8 0x0000#16 0x00000000#32 (.sessInit (a.getLsbD 0) b imm)
  | 0x21#8 => withReserved a b imm 0xFF#8 0xFFFF#16 0xFFFFFFFF#32 .asicInit
  | 0x22#8 => withReserved a b imm 0x00#8 0xFFFF#16 0x00000000#32 (.vbSet a imm)
  | 0x23#8 => withReserved a b imm 0x00#8 0xFFFF#16 0xFFFFFFFF#32 (.vbInit a)
  | 0x24#8 => withReserved a b imm 0x00#8 0xFFFF#16 0xFFFFFFFF#32 (.regRead a)
  | 0x25#8 => withReserved a b imm 0xFF#8 0xFFFF#16 0xFFFFFFFF#32 .spiEnable
  | 0x26#8 => withReserved a b imm 0xFF#8 0xFFFF#16 0xFFFFFFFF#32 .sessClose
  | 0x30#8 => withReserved a b imm 0xFF#8 0xFFFF#16 0xFFFFFFFF#32 .rdProbe
  | 0x31#8 => withReserved a b imm 0xFF#8 0xFFFF#16 0x00000000#32 (.rdPoll imm)
  | 0x32#8 => withReserved a b imm 0xFF#8 0xFFFF#16 0xFFFFFFFF#32 .hitPop
  | 0x40#8 => withReserved a b imm 0xF8#8 0xFFFF#16 0x00000000#32 (.injSet (injFieldOf a) imm)
  | 0x41#8 => withReserved a b imm 0xFF#8 0xFFFF#16 0xFFFFFFFF#32 .injInit
  | 0x42#8 => withReserved a b imm 0xFF#8 0xFFFF#16 0xFFFFFFFF#32 .injStart
  | 0x43#8 => withReserved a b imm 0xFF#8 0xFFFF#16 0xFFFFFFFF#32 .injStop
  | 0x50#8 => withReserved a b imm 0xFF#8 0xFFFF#16 0xFFFFFFFF#32 .errRecord
  | 0x51#8 => withReserved a b imm 0xFF#8 0xFFFF#16 0xFFFFFFFF#32 .errExceeded
  | _ => .error .unknownOpcode

/-- The decoder, total on the 64-bit words (R83, R87). -/
def decode (x : CommandWord) : Except Illegal Instr :=
  decodeFields (fieldOp x) (fieldA x) (fieldB x) (fieldImm x)

/-- The word of a command: its opcode, its operands in their fields, zeros in every reserved bit (R81 to R83). -/
def encode : Instr → CommandWord
  | .pack w o v => assembleWord 0x01#8 w (orderField o) v
  | .unpack w o => assembleWord 0x02#8 w (orderField o) 0#32
  | .bbClr => assembleWord 0x03#8 0#8 0#16 0#32
  | .maskPack => assembleWord 0x04#8 0#8 0#16 0#32
  | .cfgClr => assembleWord 0x10#8 0#8 0#16 0#32
  | .cfgSet half key value => assembleWord 0x11#8 key (halfField half) value
  | .maskPut c => assembleWord 0x12#8 c 0#16 0#32
  | .maskNone => assembleWord 0x13#8 0#8 0#16 0#32
  | .cfgEncode => assembleWord 0x14#8 0#8 0#16 0#32
  | .sessInit en maxruns errmax => assembleWord 0x20#8 (if en then 1#8 else 0#8) maxruns errmax
  | .asicInit => assembleWord 0x21#8 0#8 0#16 0#32
  | .vbSet ch code => assembleWord 0x22#8 ch 0#16 code
  | .vbInit slot => assembleWord 0x23#8 slot 0#16 0#32
  | .regRead addr => assembleWord 0x24#8 addr 0#16 0#32
  | .spiEnable => assembleWord 0x25#8 0#8 0#16 0#32
  | .sessClose => assembleWord 0x26#8 0#8 0#16 0#32
  | .rdProbe => assembleWord 0x30#8 0#8 0#16 0#32
  | .rdPoll n => assembleWord 0x31#8 0#8 0#16 n
  | .hitPop => assembleWord 0x32#8 0#8 0#16 0#32
  | .injSet f v => assembleWord 0x40#8 (injFieldId f) 0#16 v
  | .injInit => assembleWord 0x41#8 0#8 0#16 0#32
  | .injStart => assembleWord 0x42#8 0#8 0#16 0#32
  | .injStop => assembleWord 0x43#8 0#8 0#16 0#32
  | .errRecord => assembleWord 0x50#8 0#8 0#16 0#32
  | .errExceeded => assembleWord 0x51#8 0#8 0#16 0#32

/-- One row of spec/opcode_table.json: a word `x` selects the row when `x & mask = match` (R84). -/
def opcodeRows : List (CommandWord × CommandWord) :=
  [ (0x0100000000000000#64, 0xFF00FFFE00000000#64), (0x0200000000000000#64, 0xFF00FFFEFFFFFFFF#64),
    (0x0300000000000000#64, 0xFFFFFFFFFFFFFFFF#64), (0x0400000000000000#64, 0xFFFFFFFFFFFFFFFF#64),
    (0x1000000000000000#64, 0xFFFFFFFFFFFFFFFF#64), (0x1100000000000000#64, 0xFF00FFFE00000000#64),
    (0x1200000000000000#64, 0xFF00FFFFFFFFFFFF#64), (0x1300000000000000#64, 0xFFFFFFFFFFFFFFFF#64),
    (0x1400000000000000#64, 0xFFFFFFFFFFFFFFFF#64), (0x2000000000000000#64, 0xFFFE000000000000#64),
    (0x2100000000000000#64, 0xFFFFFFFFFFFFFFFF#64), (0x2200000000000000#64, 0xFF00FFFF00000000#64),
    (0x2300000000000000#64, 0xFF00FFFFFFFFFFFF#64), (0x2400000000000000#64, 0xFF00FFFFFFFFFFFF#64),
    (0x2500000000000000#64, 0xFFFFFFFFFFFFFFFF#64), (0x2600000000000000#64, 0xFFFFFFFFFFFFFFFF#64),
    (0x3000000000000000#64, 0xFFFFFFFFFFFFFFFF#64), (0x3100000000000000#64, 0xFFFFFFFF00000000#64),
    (0x3200000000000000#64, 0xFFFFFFFFFFFFFFFF#64), (0x4000000000000000#64, 0xFFF8FFFF00000000#64),
    (0x4100000000000000#64, 0xFFFFFFFFFFFFFFFF#64), (0x4200000000000000#64, 0xFFFFFFFFFFFFFFFF#64),
    (0x4300000000000000#64, 0xFFFFFFFFFFFFFFFF#64), (0x5000000000000000#64, 0xFFFFFFFFFFFFFFFF#64),
    (0x5100000000000000#64, 0xFFFFFFFFFFFFFFFF#64) ]

/-- The command word of an instruction given as the low `nbits` bits of `w`, bit 0 the least significant bit of
its one word (R80: every command is one 64-bit word); the bits above are 0. -/
def wordOfTable (nbits w : Nat) : CommandWord := BitVec.ofNat 64 (w % 2 ^ nbits)

/-- What the decoder reads from a word of spec/opcode_table.json (the name the host calls). -/
def decodeTableWord (nbits w : Nat) : Option Instr := (decode (wordOfTable nbits w)).toOption

end Sys2Proof
end

