-- ==== Sys2Proof/Machine/Tables.lean ====
section
/-! DEFINITION. The lengths that the tables `LAYOUT` and `FRAME` give (spec/41_config_encoder.md R122,
spec/43_readout_decoder.md R166) and the constraints R12, R121 and R166 put on the parameters. -/

namespace Sys2Proof

/-- The total width of the slots of one half of `LAYOUT` (R121, R122). -/
def rowsWidth (rows : List LayoutRow) : Nat := (rows.map LayoutRow.width).sum

/-- `BIAS_END`, the sum of all bias widths (R121). -/
def Layout.biasEnd (l : Layout) : Nat := rowsWidth l.bias

/-- `MASK_OFF`, the offset of the mask region (R122). -/
def Layout.maskOff (l : Layout) : Nat := l.biasEnd + rowsWidth l.dac

/-- `L_CFG`, the length of the configuration bitstream (R122). -/
def Layout.lCfg (l : Layout) : Nat := l.maskOff + maskBits

/-- The rows of one half of `LAYOUT` (R120, R131). -/
def Layout.rows (l : Layout) : Half → List LayoutRow
  | .dac => l.dac
  | .bias => l.bias

/-- Slots follow one another from `start` on, with no gap and no overlap (R121). -/
def rowsTile (start : Nat) : List LayoutRow → Bool
  | [] => true
  | r :: rs => decide (r.offset = start) && rowsTile (start + r.width) rs

/-- No name occurs in two rows of one half (R121). -/
def namesDistinct : List LayoutRow → Bool
  | [] => true
  | r :: rs => r.names.all (fun n => rs.all (fun q => !q.names.contains n)) && namesDistinct rs

/-- One half of `LAYOUT` is well-formed: at most 256 rows, each with a name, a width of at most `W_MAX` and a
default that fits it, tiling from `start` (R120, R121). -/
def rowsWf (wMax start : Nat) (rows : List LayoutRow) : Bool :=
  decide (rows.length ≤ 256) &&
  rows.all (fun r => !r.names.isEmpty && decide (r.width ≤ wMax) && decide (r.defaultCode < 2 ^ r.width)) &&
  rowsTile start rows && namesDistinct rows

/-- `LAYOUT` is well-formed: bias first, then DAC, tiling the start of the bitstream (R121). -/
def Layout.wf (wMax : Nat) (l : Layout) : Bool := rowsWf wMax 0 l.bias && rowsWf wMax l.biasEnd l.dac

/-- `BODY_LEN`, the number of bytes after the start marker (R166). -/
def FrameTable.bodyLen (f : FrameTable) : Nat := f.payloadLen + bitValue f.hasEnd

/-- `FRAME_LEN`, the whole frame (R166). -/
def FrameTable.frameLen (f : FrameTable) : Nat := bitValue f.hasStart + f.bodyLen

/-- A field of a frame fits in the payload (R166). -/
def FieldSlot.wf (wMax payloadLen : Nat) (s : FieldSlot) : Bool :=
  decide (s.w ≤ wMax) && decide (s.off + s.w ≤ 8 * payloadLen)

/-- `FRAME` is well-formed (R166). -/
def FrameTable.wf (wMax : Nat) (f : FrameTable) : Bool :=
  decide (1 ≤ f.payloadLen) && f.col.wf wMax f.payloadLen && f.row.wf wMax f.payloadLen &&
  f.toa.wf wMax f.payloadLen && f.tot.wf wMax f.payloadLen

/-- A width between 1 and `W_MAX` (R12). -/
def widthOk (wMax w : Nat) : Bool := decide (1 ≤ w) && decide (w ≤ wMax)

/-- The constraints column of R12, with R121 and R166 for the two tables: "a model takes only well-formed
tables". -/
def Params.wf (p : Params) : Bool :=
  decide (1 ≤ p.wMax) && decide (p.wMax ≤ 32) &&
  decide (nRow * nCol ≤ p.bbCap) &&
  p.layout.wf p.wMax &&
  decide (p.analogPattern.length = maskBits) &&
  p.frame.wf p.wMax &&
  decide (1 ≤ p.hitqCap) &&
  decide (1 ≤ p.nSlots) && decide (p.nSlots ≤ 256) &&
  decide (1 ≤ p.vbNdac) && decide (p.vbNdac ≤ 256) &&
  widthOk p.wMax p.vbW &&
  decide (p.vbDefault.length = p.vbNdac) && p.vbDefault.all (fun v => decide (v < 2 ^ p.vbW)) &&
  decide (1 ≤ p.respLen) && decide (p.respLen ≤ 4) &&
  widthOk p.wMax p.injDacW && widthOk p.wMax p.wPer && widthOk p.wMax p.wDiv &&
  widthOk p.wMax p.wDly && widthOk p.wMax p.wDuty && widthOk p.wMax p.wCyc

/-- `checksum_ok(P)` (R12, R171): the reference predicate is always true; any other is an unknown total
predicate of the payload bytes. -/
def Params.checksumOk (p : Params) (payload : List Byte) : Bool :=
  match p.checksum with
  | none => true
  | some k => Config.checksumPredicate k payload

end Sys2Proof
end

