-- ==== Sys2Proof/Machine/State.lean ====
section
/-! DEFINITION. The state of APX-CORE (spec/10_state.md R20 to R48) as plain data, its reset value (R51), and the
two kinds of stop. The state of R20 is `ArchState`; what R20 calls arguments of the step relation (the parameters, the
stream of commands, the environment's draws) is `StepArguments`; `State`, which the host's interface steps, is the
pair. -/

namespace Sys2Proof.Machine

/-- `STAGE`, the position in the required call order; value 7 is never written (R24, U4). -/
inductive Stage where
  | reset
  | inited
  | asicDone
  | voltDone
  | injDone
  | readout
  | closed
  deriving DecidableEq, Repr

/-- The cause codes of `STATUS` (R22, R220); codes 10 to 15 are never written (U4). -/
inductive Cause where
  | ok
  | overflowError
  | configKeyError
  | maskShapeError
  | injectionConfigError
  | transportError
  | decodeError
  | illegalCommand
  | stageError
  | bufferError
  deriving DecidableEq, Repr

/-- `TERM_CAUSE`: why STAGE became `Closed` (R26). -/
inductive TermCause where
  | notTerminated
  | budgetExceeded
  | maxrunsReached
  | sessClose
  deriving DecidableEq, Repr

/-- `INJ_STATE` (R35). -/
inductive InjState where
  | idle
  | armed
  | injecting
  deriving DecidableEq, Repr

/-- `DEC_STATE` (R36). -/
inductive DecState where
  | awaitingSync
  | readingFrame
  | emitting
  deriving DecidableEq, Repr

/-- `LAST_DEC_CAUSE`: the reason of the most recent DecodeError (R40). -/
inductive DecCause where
  | noneYet
  | endMarker
  | checksum
  | column
  | row
  deriving DecidableEq, Repr

/-- `LATCH_T`: which shift register latches (R44, R144). -/
inductive LatchTarget where
  | asicConfig
  | voltageBoard
  | injectionDac
  | injectionTiming
  deriving DecidableEq, Repr

/-- The five result registers `r[0]` to `r[4]` (R21). -/
structure ResultRegs where
  r0 : Word
  r1 : Word
  r2 : Word
  r3 : Word
  r4 : Word
  deriving DecidableEq, Repr

/-- `INJ_F[0..7]`: eight 32-bit two's complement fields (R34). -/
structure InjFields where
  amplitude : Word
  offset : Word
  position : Word
  period : Word
  clkdiv : Word
  delay : Word
  duty : Word
  cycles : Word
  deriving DecidableEq, Repr

/-- A HitRecord (R41). -/
structure HitRecord where
  col : Word
  row : Word
  toa : Word
  tot : Word
  valid : Bool
  deriving DecidableEq, Repr

/-- An event of the output trace (R47). -/
inductive Event where
  | txByte (b : Byte)
  | latch (t : LatchTarget) (p : Byte) (level : Bool)
  | injEn (level : Bool)
  | spiEn (level : Bool)
  deriving DecidableEq, Repr

/-- What reaches APX-CORE from outside, in the order it happens (R9, R10, R245): a command word of the host, a
byte that arrives in RXQ, the environment's failing of a read that REG.READ is held in (R153), and the reset
input. -/
inductive Input where
  /-- The host writes a command word to the command port (R9). -/
  | command (w : CommandWord)
  /-- The environment's move `RxArrive(b)` (R10). -/
  | rxArrive (b : Byte)
  /-- The environment fails the read that REG.READ waits for; `j` bytes of RXQ are lost (R153). -/
  | heldReadFails (j : Nat)
  /-- The reset input, asserted and released (R245). -/
  | reset
  deriving DecidableEq, Repr

/-- THE STATE OF APX-CORE: one field per element of R21 to R48 and no other (R20). -/
structure ArchState where
  /-- `r[0..4]` (R21). -/
  r : ResultRegs
  /-- STATUS, 4 bits (R22). -/
  status : Cause
  /-- ERR_INFO (R23). -/
  errInfo : Word
  /-- STAGE, 3 bits (R24). -/
  stage : Stage
  /-- BUSY (R25). -/
  busy : Bool
  /-- TERM_CAUSE, 2 bits (R26). -/
  termCause : TermCause
  /-- BB, the bit buffer (R29). -/
  bb : Bits
  /-- OVR_DAC: `none` is absent, `some v` is present(v) (R30). -/
  ovrDac : List (Option Nat)
  /-- OVR_BIAS (R30). -/
  ovrBias : List (Option Nat)
  /-- MASK_PRESENT (R31). -/
  maskPresent : Bool
  /-- MTXT (R31). -/
  mtxt : List Byte
  /-- CFG (R32). -/
  cfg : Bits
  /-- CFG_VALID (R32). -/
  cfgValid : Bool
  /-- VB_CODE, one `VB_W`-bit code per channel (R33). -/
  vbCode : List Nat
  /-- VB_SLOT (R33). -/
  vbSlot : Byte
  /-- INJ_F (R34). -/
  injF : InjFields
  /-- INJ_STATE, 2 bits (R35). -/
  injState : InjState
  /-- DEC_STATE, 2 bits (R36). -/
  decState : DecState
  /-- FBUF (R37). -/
  fbuf : List Byte
  /-- SKIPPING (R38). -/
  skipping : Bool
  /-- SYNC_LOSS_COUNT (R39). -/
  syncLossCount : Word
  /-- LAST_DEC_CAUSE, 3 bits (R40). -/
  lastDecCause : DecCause
  /-- HITQ, front first (R41). -/
  hitq : List HitRecord
  /-- ERR_COUNT (R42). -/
  errCount : Word
  /-- ERRMAX (R42). -/
  errMax : Word
  /-- RUN_COUNT (R43). -/
  runCount : BitVec 16
  /-- MAXRUNS (R43). -/
  maxRuns : BitVec 16
  /-- MAXRUNS_EN (R43). -/
  maxRunsEn : Bool
  /-- LATCH, the level (R44). -/
  latch : Bool
  /-- LATCH_T, 2 bits (R44). -/
  latchT : LatchTarget
  /-- LATCH_P (R44). -/
  latchP : Byte
  /-- INJ_EN (R45). -/
  injEn : Bool
  /-- SPI_EN (R46). -/
  spiEn : Bool
  /-- OUT, oldest event first (R47). -/
  out : List Event
  /-- RXQ, front first (R48). -/
  rxq : List Byte
  deriving DecidableEq, Repr

/-- THE ARGUMENTS OF THE STEP RELATION, which are no state (R20): the parameters, the stream of commands, and the
environment's draws. -/
structure StepArguments where
  /-- The implementation parameters of R12, which no step changes. -/
  params : Params
  /-- The inputs still to come, in their order (R9, R10). -/
  inputs : List Input
  /-- The environment's answers to the next transport writes (R10 `TxOutcome`). -/
  txAnswers : List TransportOutcome
  /-- The environment's answers to the next transport reads (R10 `RxOutcome`). -/
  rxAnswers : List TransportOutcome
  /-- How many transport calls a free value has answered. -/
  freeAnswers : Nat
  deriving DecidableEq, Repr

/-- What the host's interface passes from one step to the next: the state of R20 and, beside it, the arguments that
the steps to come will take. The interface fixes a step of one argument (log 1); `ArchState.Steps` of Step.lean is the
relation that R20 describes, in which the arguments are arguments. -/
structure State extends ArchState, StepArguments
  deriving DecidableEq, Repr

/-- The faults that stop the machine: none. A fault of this hardware (R220) is a value of STATUS after which the
next command runs as any other (R224, R227), so it is a next state; no rule of the spec stops the block. -/
inductive Fault where
  deriving DecidableEq, Repr

/-- The refusals of the model. -/
inductive Refusal where
  /-- Raised by an arm of `exec` whose instruction has no meaning yet; no arm does. Safe. -/
  | notModelled (mnemonic : String)
  /-- Raised by `step` when the parameters in the state are not well-formed: a precondition of the model
  (U14: "refuse"; R121, R166: "a model takes only well-formed tables"). Safe. -/
  | illFormedParameters
  deriving DecidableEq, Repr

/-- The injection fields all 0 (R51). -/
def InjFields.zero : InjFields := ⟨0, 0, 0, 0, 0, 0, 0, 0⟩

/-- The reset value of every element (R51, R245) in an implementation with parameters `p`. -/
def ArchState.resetOf (p : Params) : ArchState where
  r := ⟨0, 0, 0, 0, 0⟩
  status := .ok
  errInfo := 0
  stage := .reset
  busy := false
  termCause := .notTerminated
  bb := []
  ovrDac := List.replicate p.layout.dac.length none
  ovrBias := List.replicate p.layout.bias.length none
  maskPresent := false
  mtxt := []
  cfg := zeros p.layout.lCfg
  cfgValid := false
  vbCode := p.vbDefault
  vbSlot := 0
  injF := InjFields.zero
  injState := .idle
  decState := .awaitingSync
  fbuf := []
  skipping := false
  syncLossCount := 0
  lastDecCause := .noneYet
  hitq := []
  errCount := 0
  errMax := 0
  runCount := 0
  maxRuns := 0
  maxRunsEn := false
  latch := false
  latchT := .asicConfig
  latchP := 0
  injEn := false
  spiEn := false
  out := []
  rxq := []

/-- No input and no answer of the environment placed. -/
def StepArguments.unplaced (p : Params) : StepArguments where
  params := p
  inputs := []
  txAnswers := []
  rxAnswers := []
  freeAnswers := 0

/-- The machine right after reset in an implementation with parameters `p` (R51), with no argument of a step
placed. -/
def State.resetOf (p : Params) : State where
  toArchState := ArchState.resetOf p
  toStepArguments := StepArguments.unplaced p

/-- The machine right after reset, with the reference parameters of R12. -/
def State.reset : State := State.resetOf Params.reference

end Sys2Proof.Machine
end

