-- ==== Sys2Proof/Machine/Operands.lean ====
section
/-! DEFINITION. The pure functions of the BitField Codec and of the byte packing (spec/40_codec.md R100, R101, R103;
spec/20_memory.md R60, R64 to R66), and the access to the indexed registers (R34). None reads or writes the
state. -/

namespace Sys2Proof.Machine

/-- The `w` bits of `v` in the order `o` (R100): for `MSB` the `i`-th is `v[w-1-i]`, for `LSB` it is `v[i]`. -/
def packBits (v w : Nat) : BitOrder → Bits
  | .msb => (List.range w).map (fun i => v.testBit (w - 1 - i))
  | .lsb => (List.range w).map (fun i => v.testBit i)

/-- `pack(v, w, o)` (R100); `none` is OverflowError. -/
def pack (v w : Nat) (o : BitOrder) : Option Bits :=
  if v < 2 ^ w then some (packBits v w o) else none

/-- `unpack(s, |s|, o)` (R101): the sum of `s[i] * 2^(w-1-i)` for `MSB`, of `s[i] * 2^i` for `LSB`. -/
def unpack (s : Bits) : BitOrder → Nat
  | .msb => s.foldl (fun acc b => 2 * acc + bitValue b) 0
  | .lsb => s.foldr (fun b acc => bitValue b + 2 * acc) 0

/-- `packmask(g)` (R103): the cells row by row. -/
def packmask (g : List Bits) : Bits := g.flatten

/-- `MemRead(buf, off, n)` (R60). -/
def memRead (buf : Bits) (off n : Nat) : Bits := (buf.drop off).take n

/-- `MemWrite(buf, off, n, s)` (R60): replaces `buf[off..off+n)` by the `n`-bit sequence `s`. -/
def memWrite (buf : Bits) (off n : Nat) (s : Bits) : Bits := buf.take off ++ s ++ buf.drop (off + n)

/-- One byte of `tobytes`: bit `i` of the chunk has weight `2^(7-i)`, a missing bit is 0 (R64). -/
def byteOfBits (chunk : Bits) : Byte :=
  BitVec.ofNat 8 (unpack (chunk ++ zeros (8 - chunk.length)) .msb)

/-- The first `n` bytes of `tobytes`. -/
def bytesOfBits : Nat → Bits → List Byte
  | 0, _ => []
  | n + 1, s => byteOfBits (s.take 8) :: bytesOfBits n (s.drop 8)

/-- `tobytes(s)` (R64): `ceil(|s| / 8)` bytes. -/
def tobytes (s : Bits) : List Byte := bytesOfBits ((s.length + 7) / 8) s

/-- `frombytes(B)` (R65): each byte most significant bit first. -/
def frombytes (bs : List Byte) : Bits := bs.flatMap (fun b => packBits b.toNat 8 .msb)

/-- A register-read response, first byte most significant, zero-extended (R66). -/
def responseValue (bs : List Byte) : Word :=
  BitVec.ofNat 32 (bs.foldl (fun acc b => 256 * acc + b.toNat) 0)

/-- Read `INJ_F[f]` (R34). -/
def InjFields.get (x : InjFields) : InjField → Word
  | .amplitude => x.amplitude
  | .offset => x.offset
  | .position => x.position
  | .period => x.period
  | .clkdiv => x.clkdiv
  | .delay => x.delay
  | .duty => x.duty
  | .cycles => x.cycles

/-- `INJ_F[f] <- v` (R34, R193). -/
def InjFields.set (x : InjFields) (f : InjField) (v : Word) : InjFields :=
  match f with
  | .amplitude => { x with amplitude := v }
  | .offset => { x with offset := v }
  | .position => { x with position := v }
  | .period => { x with period := v }
  | .clkdiv => { x with clkdiv := v }
  | .delay => { x with delay := v }
  | .duty => { x with duty := v }
  | .cycles => { x with cycles := v }

/-- The eight field ids in order (R34). -/
def injFieldsInOrder : List InjField :=
  [.amplitude, .offset, .position, .period, .clkdiv, .delay, .duty, .cycles]

/-- The id of a field as ERR_INFO reports it (R221). -/
def injFieldInfo : InjField → Word
  | .amplitude => 0
  | .offset => 1
  | .position => 2
  | .period => 3
  | .clkdiv => 4
  | .delay => 5
  | .duty => 6
  | .cycles => 7

end Sys2Proof.Machine
end

