-- ==== Sys2Proof/Machine/Bitstream.lean ====
section
/-! DEFINITION. The pure functions of the Config Encoder (spec/41_config_encoder.md R124 to R127), the voltage-board
bitstream (spec/42_register_protocol.md R150), and the validation and bitstreams of the Injection Controller
(spec/44_injection.md R191, R192). -/

namespace Sys2Proof.Machine

/-- Split at every byte 0x0A: `k` newlines give `k + 1` pieces (R124). -/
def splitLines : List Byte → List (List Byte)
  | [] => [[]]
  | c :: cs =>
    if c = 0x0A#8 then [] :: splitLines cs
    else
      match splitLines cs with
      | [] => [[c]]
      | l :: ls => (c :: l) :: ls

/-- The pieces of a mask text: one trailing newline is allowed, its empty last piece is dropped (R124). -/
def maskPieces (text : List Byte) : List (List Byte) :=
  if text.getLast? = some 0x0A#8 then (splitLines text).dropLast else splitLines text

/-- The information word of MaskShapeError: `(reason << 8) | detail` (R221). -/
def shapeInfo (reason detail : Nat) : Word := (BitVec.ofNat 32 reason <<< 8) ||| BitVec.ofNat 32 detail

/-- A character that is neither `0` nor `1` (R124). -/
def badMaskChar (c : Byte) : Bool := c != 0x30#8 && c != 0x31#8

/-- `parse_mask(T)` (R124): the grid, or the information word of MaskShapeError. All row lengths are checked
before any character. -/
def parseMask (text : List Byte) : Except Word (List Bits) :=
  if (maskPieces text).length ≠ nRow then .error (shapeInfo 1 (min (maskPieces text).length 255))
  else
    match (maskPieces text).findIdx? (fun l => l.length != nCol) with
    | some row => .error (shapeInfo 2 row)
    | none =>
      match (maskPieces text).findIdx? (fun l => l.any badMaskChar) with
      | some row => .error (shapeInfo 3 row)
      | none => .ok ((maskPieces text).map (fun l => l.map (fun c => c == 0x31#8)))

/-- `mask_region(present, T)` (R125). -/
def maskRegion (p : Params) (present : Bool) (text : List Byte) : Except Word Bits :=
  if present then
    match parseMask text with
    | .error info => .error info
    | .ok g => .ok (packmask g)
  else .ok p.analogPattern

/-- The default codes of a half of `LAYOUT`, each packed in its slot (R127). -/
def defaultRows (o : BitOrder) (rows : List LayoutRow) : Bits :=
  rows.flatMap (fun r => packBits r.defaultCode r.width o)

/-- `default_bits()` (R127): the slots tile the bitstream (R121), so it is their concatenation and the pattern. -/
def defaultBits (p : Params) : Bits :=
  defaultRows p.orderCfg p.layout.bias ++ defaultRows p.orderCfg p.layout.dac ++ p.analogPattern

/-- One loop of `encode` (R126): overwrite the slot of every present override. Every stored override fits its
slot (R52 item 3), so its `pack` is `packBits`. -/
def writeOverrides (o : BitOrder) : List LayoutRow → List (Option Nat) → Bits → Bits
  | r :: rows, some v :: ovr, s =>
      writeOverrides o rows ovr (memWrite s r.offset r.width (packBits v r.width o))
  | _ :: rows, none :: ovr, s => writeOverrides o rows ovr s
  | _, _, s => s

/-- `encode(OB, OD, present, T)` (R126): `L_CFG` bits, or the information word of MaskShapeError. -/
def encodeConfig (p : Params) (ob od : List (Option Nat)) (present : Bool) (text : List Byte) :
    Except Word Bits :=
  match maskRegion p present text with
  | .error info => .error info
  | .ok m =>
    .ok (memWrite
      (writeOverrides p.orderCfg p.layout.dac od (writeOverrides p.orderCfg p.layout.bias ob (defaultBits p)))
      p.layout.maskOff maskBits m)

/-- `encode` of the staging state (R134, R147). -/
def State.encoded (s : State) : Except Word Bits :=
  encodeConfig s.params s.ovrBias s.ovrDac s.maskPresent s.mtxt

/-- `vb_bits()` (R150): channel 0 first. -/
def State.vbBits (s : State) : Bits :=
  s.vbCode.flatMap (fun code => packBits code s.params.vbW s.params.orderCfg)

/-- `MAX[f]` (R191). -/
def injMax (p : Params) : InjField → Int
  | .amplitude => 2 ^ p.injDacW - 1
  | .offset => 2 ^ p.injDacW - 1
  | .position => (p.nSlots : Int) - 1
  | .period => 2 ^ p.wPer - 1
  | .clkdiv => 2 ^ p.wDiv - 1
  | .delay => 2 ^ p.wDly - 1
  | .duty => 2 ^ p.wDuty - 1
  | .cycles => 2 ^ p.wCyc - 1

/-- A field out of range, compared as a signed 32-bit value (R191). -/
def injOutOfRange (p : Params) (x : InjFields) (f : InjField) : Bool :=
  decide ((x.get f).toInt < 0) || decide (injMax p f < (x.get f).toInt)

/-- `inj_check()` (R191): the first field out of range, in field order; `none` when all eight pass. -/
def State.injCheck (s : State) : Option InjField := injFieldsInOrder.find? (injOutOfRange s.params s.injF)

/-- `inj_dac_bits()` (R192), defined after `inj_check()` has passed. -/
def State.injDacBits (s : State) : Bits :=
  packBits s.injF.amplitude.toNat s.params.injDacW s.params.orderCfg ++
  packBits s.injF.offset.toNat s.params.injDacW s.params.orderCfg

/-- `inj_timing_bits()` (R192), defined after `inj_check()` has passed. -/
def State.injTimingBits (s : State) : Bits :=
  packBits s.injF.period.toNat s.params.wPer s.params.orderCfg ++
  packBits s.injF.clkdiv.toNat s.params.wDiv s.params.orderCfg ++
  packBits s.injF.delay.toNat s.params.wDly s.params.orderCfg ++
  packBits s.injF.duty.toNat s.params.wDuty s.params.orderCfg ++
  packBits s.injF.cycles.toNat s.params.wCyc s.params.orderCfg

/-- `INJ_F[2]` as the 8-bit position of a latch (R44, R195, R197); `N_SLOTS` is at most 256 (R12). -/
def State.injSlot (s : State) : Byte := s.injF.position.setWidth 8

end Sys2Proof.Machine
end

