-- ==== Sys2Proof/Machine/Codes.lean ====
section
/-! DEFINITION. The numbers of the named values that the host reads (spec/10_state.md R24, R26, R35, R36, R40, R44;
spec/60_exceptions.md R220). -/

namespace Sys2Proof.Machine

/-- The value of STAGE (R24). -/
def Stage.code : Stage → BitVec 3
  | .reset => 0
  | .inited => 1
  | .asicDone => 2
  | .voltDone => 3
  | .injDone => 4
  | .readout => 5
  | .closed => 6

/-- The cause code of STATUS (R220). -/
def Cause.code : Cause → BitVec 4
  | .ok => 0
  | .overflowError => 1
  | .configKeyError => 2
  | .maskShapeError => 3
  | .injectionConfigError => 4
  | .transportError => 5
  | .decodeError => 6
  | .illegalCommand => 7
  | .stageError => 8
  | .bufferError => 9

/-- The value of TERM_CAUSE (R26). -/
def TermCause.code : TermCause → BitVec 2
  | .notTerminated => 0
  | .budgetExceeded => 1
  | .maxrunsReached => 2
  | .sessClose => 3

/-- The value of INJ_STATE (R35). -/
def InjState.code : InjState → BitVec 2
  | .idle => 0
  | .armed => 1
  | .injecting => 2

/-- The value of DEC_STATE (R36). -/
def DecState.code : DecState → BitVec 2
  | .awaitingSync => 0
  | .readingFrame => 1
  | .emitting => 2

/-- The value of LAST_DEC_CAUSE (R40). -/
def DecCause.code : DecCause → BitVec 3
  | .noneYet => 0
  | .endMarker => 1
  | .checksum => 2
  | .column => 3
  | .row => 4

/-- The value of LATCH_T (R44, R144). -/
def LatchTarget.code : LatchTarget → BitVec 2
  | .asicConfig => 0
  | .voltageBoard => 1
  | .injectionDac => 2
  | .injectionTiming => 3

end Sys2Proof.Machine
end

