-- ==== Sys2Proof/Machine/Flags.lean ====
section
/-! DEFINITION. The flags (spec/10_state.md R28), the saturating counters (spec/45_error_budget.md R211, R212, R216), and
what the host reads at a command boundary (R50). -/

namespace Sys2Proof.Machine

/-- `sat_N(v + 1)`: a counter that saturates and never wraps (R16, R216). -/
def satInc {n : Nat} (v : BitVec n) : BitVec n :=
  if v.toNat + 1 < 2 ^ n then BitVec.ofNat n (v.toNat + 1) else v

/-- `exceeded()`, the flag EXCEEDED: strictly greater (R28, R211). -/
def State.exceeded (s : State) : Bool := decide (s.errMax.toNat < s.errCount.toNat)

/-- `hits_present()`, the flag HITS_PRESENT: strictly beyond the threshold (R28, R175). -/
def State.hitsPresent (s : State) : Bool := decide (s.params.rxThresh < s.rxq.length)

/-- The flag HITQ_EMPTY (R28). -/
def State.hitqEmpty (s : State) : Bool := s.hitq.isEmpty

/-- A truth value as a result register holds it: 1 or 0 (R21). -/
def boolWord (b : Bool) : Word := if b then 1 else 0

/-- Everything the host can read at a command boundary, and nothing else (R50). -/
structure HostView where
  r : ResultRegs
  status : BitVec 4
  errInfo : Word
  stage : BitVec 3
  busy : Bool
  termCause : BitVec 2
  cfgValid : Bool
  maskPresent : Bool
  skipping : Bool
  exceeded : Bool
  hitsPresent : Bool
  hitqEmpty : Bool
  bbLength : Nat
  injState : BitVec 2
  decState : BitVec 2
  syncLossCount : Word
  lastDecCause : BitVec 3
  errCount : Word
  errMax : Word
  runCount : BitVec 16
  hitqLength : Nat
  cfg : Bits
  deriving DecidableEq, Repr

/-- The host's reading of the state; it has no side effect (R50, R71). -/
def State.hostView (s : State) : HostView where
  r := s.r
  status := s.status.code
  errInfo := s.errInfo
  stage := s.stage.code
  busy := s.busy
  termCause := s.termCause.code
  cfgValid := s.cfgValid
  maskPresent := s.maskPresent
  skipping := s.skipping
  exceeded := s.exceeded
  hitsPresent := s.hitsPresent
  hitqEmpty := s.hitqEmpty
  bbLength := s.bb.length
  injState := s.injState.code
  decState := s.decState.code
  syncLossCount := s.syncLossCount
  lastDecCause := s.lastDecCause.code
  errCount := s.errCount
  errMax := s.errMax
  runCount := s.runCount
  hitqLength := s.hitq.length
  cfg := s.cfg

end Sys2Proof.Machine
end

