-- ==== Sys2Proof/Machine/Ops.lean ====
section
/-! DEFINITION. The operations the commands share: taking a fault and leaving a command (spec/60_exceptions.md R224,
R227), the stage gate (R232), the output trace and its signals (spec/10_state.md R44 to R47), the transport and
the shift-register write (spec/42_register_protocol.md R141 to R143), the held read of REG.READ (R153), the
termination of a session (spec/45_error_budget.md R215), and reset (spec/70_reset_and_hazards.md R245). -/

namespace Sys2Proof.Machine

/-- One step's outcome. -/
abbrev Result := Host.Outcome State Fault Refusal

/-- TAKING A FAULT: `raise E(info)` (R224). STATUS and ERR_INFO are written and nothing more: no handler, no vector,
no saved state, no change of mode. -/
def State.raise (s : State) (c : Cause) (info : Word) : State := { s with status := c, errInfo := info }

/-- LEAVING A COMMAND that succeeded: STATUS and ERR_INFO are 0 (R22, R23, R87). There is no return from a fault
(R227): the next command runs as any other. -/
def State.succeed (s : State) : State := { s with status := .ok, errInfo := 0 }

/-- The end of a command that faulted (R224). -/
def faulted (s : State) (c : Cause) (info : Word) : Result := .next (s.raise c info)

/-- The end of a command that succeeded (R87). -/
def succeeded (s : State) : Result := .next s.succeed

/-- A value of an 8-bit operand as ERR_INFO reports it (R221). -/
def byteInfo (a : Byte) : Word := a.setWidth 32

/-- The value of STAGE as ERR_INFO reports it (R221). -/
def stageInfo (st : Stage) : Word := st.code.setWidth 32

/-- Stages 1 to 5, the open session (R232). -/
def Stage.isOpen : Stage → Bool
  | .reset => false
  | .inited => true
  | .asicDone => true
  | .voltDone => true
  | .injDone => true
  | .readout => true
  | .closed => false

/-- Which command is legal at which stage: the table of R232. -/
def stageLegal (i : Instr) (st : Stage) : Bool :=
  match i with
  | .pack _ _ _ => true
  | .unpack _ _ => true
  | .bbClr => true
  | .maskPack => true
  | .cfgClr => true
  | .cfgSet _ _ _ => true
  | .maskPut _ => true
  | .maskNone => true
  | .cfgEncode => true
  | .sessInit _ _ _ => true
  | .asicInit => st == .inited
  | .vbSet _ _ => true
  | .vbInit _ => st == .asicDone
  | .regRead _ => st.isOpen && st != .readout
  | .spiEnable => st == .injDone
  | .sessClose => st.isOpen
  | .rdProbe => st.isOpen
  | .rdPoll _ => st == .readout
  | .hitPop => true
  | .injSet _ _ => true
  | .injInit => st == .voltDone
  | .injStart => st == .injDone || st == .readout
  | .injStop => st == .injDone || st == .readout || st == .closed
  | .errRecord => st.isOpen
  | .errExceeded => true

/-- The stage gate: at a stage that is not legal the command raises StageError(STAGE) and nothing else happens;
the gate never changes what a legal command does (R87, R231, R232). -/
def gated (i : Instr) (s : State) (body : Result) : Result :=
  if stageLegal i s.stage then body else faulted s .stageError (stageInfo s.stage)

/-- `emit ev`: append events to OUT (R16, R47). -/
def State.emits (s : State) (evs : List Event) : State := { s with out := s.out ++ evs }

/-- `r[0] <- v` (R16). -/
def State.setR0 (s : State) (v : Word) : State := { s with r := { s.r with r0 := v } }

/-- The override set of a half (R30, R131). -/
def State.overrides (s : State) : Half → List (Option Nat)
  | .dac => s.ovrDac
  | .bias => s.ovrBias

/-- `OVR_kind[key] <- present(v)` (R131). -/
def State.setOverride (s : State) (half : Half) (key v : Nat) : State :=
  match half with
  | .dac => { s with ovrDac := s.ovrDac.set key (some v) }
  | .bias => { s with ovrBias := s.ovrBias.set key (some v) }

/-- The environment's answer to a transport write (R10, R141): the next answer placed in the state, or a free
value. -/
def State.answerTx (s : State) : TransportOutcome × State :=
  match s.txAnswers with
  | a :: rest => (a, { s with txAnswers := rest })
  | [] => (Config.freeTxOutcome s.freeAnswers, { s with freeAnswers := s.freeAnswers + 1 })

/-- The environment's answer to a transport read (R10, R142). -/
def State.answerRx (s : State) : TransportOutcome × State :=
  match s.rxAnswers with
  | a :: rest => (a, { s with rxAnswers := rest })
  | [] => (Config.freeRxOutcome s.freeAnswers, { s with freeAnswers := s.freeAnswers + 1 })

/-- The events of bytes sent in order (R47, R74 item 3). -/
def txEvents (bs : List Byte) : List Event := bs.map Event.txByte

/-- `tx_write(B)` (R141): `.ok` goes on; `.error` is the state in which the command has ended with
TransportError(0), after a prefix of the bytes has gone out. -/
def State.txWrite (s : State) (bs : List Byte) : Except State State :=
  match s.answerTx with
  | (.ok, t) => .ok (t.emits (txEvents bs))
  | (.fail k, t) => .error ((t.emits (txEvents (bs.take k))).raise .transportError 0)

/-- `rx_read(m)` (R142): the bytes and the state after them; `.error` is the state in which the command has ended
with TransportError(1), after `j ≤ m` bytes were lost. -/
def State.rxRead (s : State) (m : Nat) : Except State (List Byte × State) :=
  match s.answerRx with
  | (.ok, t) => .ok (s.rxq.take m, { t with rxq := s.rxq.drop m })
  | (.fail j, t) => .error ({ t with rxq := s.rxq.drop (min j m) }.raise .transportError 1)

/-- The latch pulse at the end of `sr_write` (R143). -/
def State.pulseLatch (s : State) (t : LatchTarget) (p : Byte) : State :=
  let up := { s with latchT := t, latchP := p, latch := true }.emits [.latch t p true]
  { up with latch := false }.emits [.latch t p false]

/-- `sr_write(s, t, p)` (R143). -/
def State.srWrite (s : State) (bits : Bits) (t : LatchTarget) (p : Byte) : Except State State :=
  match s.txWrite (tobytes bits) with
  | .error e => .error e
  | .ok u => .ok (u.pulseLatch t p)

/-- The read half of REG.READ, made once `RESP_LEN` bytes are there (R153): `BUSY <- 0` whatever the outcome. -/
def finishRead (s : State) : Result :=
  match s.rxRead s.params.respLen with
  | .error t => .next { t with busy := false }
  | .ok (bs, t) => succeeded ({ t with busy := false }.setR0 (responseValue bs))

/-- Enough bytes for a register-read response (R153). -/
def State.responseReady (s : State) : Bool := decide (s.params.respLen ≤ s.rxq.length)

/-- The environment fails the read that REG.READ is held in: `j ≤ |RXQ|` bytes are lost, `BUSY <- 0`,
TransportError(1) (R153). -/
def failHeldRead (s : State) (j : Nat) : Result :=
  faulted { s with rxq := s.rxq.drop j, busy := false } .transportError 1

/-- `record_error()` (R212). -/
def State.recordError (s : State) : State := { s with errCount := satInc s.errCount }

/-- `STAGE <- 6; TERM_CAUSE <- c` (R157, R176, R213). -/
def State.terminate (s : State) (c : TermCause) : State := { s with stage := .closed, termCause := c }

/-- The test after ERR_COUNT may have risen (R215). -/
def State.closeIfExceeded (s : State) : State :=
  if s.exceeded then s.terminate .budgetExceeded else s

/-- `RxArrive(b)` (R10, R48). -/
def State.rxArrive (s : State) (b : Byte) : State := { s with rxq := s.rxq ++ [b] }

/-- The reset input (R245): every element of R51, and nothing of the arguments of the steps to come. -/
def State.hardReset (s : State) : State := { s with toArchState := ArchState.resetOf s.params }

end Sys2Proof.Machine
end

