-- ==== Sys2Proof/Machine/Codec.lean ====
section
/-! DEFINITION. The commands of the BitField Codec: PACK, UNPACK, BB.CLR, MASK.PACK (spec/40_codec.md R105 to
R111). -/

namespace Sys2Proof.Machine

/-- PACK (R105, R106). -/
def execPack (w : Byte) (o : BitOrder) (v : Word) (s : State) : Result :=
  gated (.pack w o v) s <|
    if s.params.wMax < w.toNat then faulted s .illegalCommand 2
    else
      match pack v.toNat w.toNat o with
      | none => faulted s .overflowError v
      | some bits =>
        if s.params.bbCap < s.bb.length + w.toNat then faulted s .bufferError 1
        else succeeded { s with bb := s.bb ++ bits }

/-- UNPACK (R107, R108). -/
def execUnpack (w : Byte) (o : BitOrder) (s : State) : Result :=
  gated (.unpack w o) s <|
    if s.params.wMax < w.toNat then faulted s .illegalCommand 2
    else if s.bb.length < w.toNat then faulted s .bufferError 0
    else
      succeeded
        ({ s with bb := s.bb.drop w.toNat }.setR0 (BitVec.ofNat 32 (unpack (memRead s.bb 0 w.toNat) o)))

/-- BB.CLR (R109). -/
def execBbClr (s : State) : Result := gated .bbClr s <| succeeded { s with bb := [] }

/-- MASK.PACK (R110). -/
def execMaskPack (s : State) : Result :=
  gated .maskPack s <|
    match maskRegion s.params s.maskPresent s.mtxt with
    | .error info => faulted s .maskShapeError info
    | .ok m =>
      if s.params.bbCap < s.bb.length + maskBits then faulted s .bufferError 1
      else succeeded { s with bb := s.bb ++ m }

end Sys2Proof.Machine
end

