-- ==== Sys2Proof/Machine/ConfigEncoder.lean ====
section
/-! DEFINITION. The commands of the Config Encoder: CFG.CLR, CFG.SET, MASK.PUT, MASK.NONE, CFG.ENCODE
(spec/41_config_encoder.md R130 to R135). -/

namespace Sys2Proof.Machine

/-- CFG.CLR (R130). -/
def execCfgClr (s : State) : Result :=
  gated .cfgClr s <|
    succeeded
      { s with
        ovrDac := List.replicate s.params.layout.dac.length none
        ovrBias := List.replicate s.params.layout.bias.length none
        cfgValid := false }

/-- CFG.SET (R131). -/
def execCfgSet (half : Half) (key : Byte) (value : Word) (s : State) : Result :=
  gated (.cfgSet half key value) s <|
    match (s.params.layout.rows half)[key.toNat]? with
    | none => faulted s .configKeyError (byteInfo key)
    | some row =>
      if value.toNat < 2 ^ row.width then
        succeeded { s.setOverride half key.toNat value.toNat with cfgValid := false }
      else faulted s .overflowError value

/-- MASK.PUT (R132). -/
def execMaskPut (c : Byte) (s : State) : Result :=
  gated (.maskPut c) s <|
    succeeded
      { s with
        maskPresent := true
        mtxt := if s.mtxt.length < mtxtCap then s.mtxt ++ [c] else s.mtxt
        cfgValid := false }

/-- MASK.NONE (R133). -/
def execMaskNone (s : State) : Result :=
  gated .maskNone s <| succeeded { s with maskPresent := false, mtxt := [], cfgValid := false }

/-- CFG.ENCODE (R134). -/
def execCfgEncode (s : State) : Result :=
  gated .cfgEncode s <|
    match s.encoded with
    | .error info => faulted s .maskShapeError info
    | .ok bits => succeeded { s with cfg := bits, cfgValid := true }

end Sys2Proof.Machine
end

