-- ==== Sys2Proof/Machine/ErrorBudget.lean ====
section
/-! DEFINITION. The commands of the Error Budget: ERR.RECORD, ERR.EXCEEDED (spec/45_error_budget.md R210 to R216). -/

namespace Sys2Proof.Machine

/-- ERR.RECORD (R213). -/
def execErrRecord (s : State) : Result :=
  gated .errRecord s <| succeeded (s.recordError.setR0 s.recordError.errCount).closeIfExceeded

/-- ERR.EXCEEDED (R214). -/
def execErrExceeded (s : State) : Result := gated .errExceeded s <| succeeded (s.setR0 (boolWord s.exceeded))

end Sys2Proof.Machine
end

