-- ==== Sys2Proof/Machine/Injection.lean ====
section
/-! DEFINITION. The commands of the Injection Controller: INJ.SET, INJ.INIT, INJ.START, INJ.STOP
(spec/44_injection.md R190 to R200). -/

namespace Sys2Proof.Machine

/-- INJ.SET (R193): stored as it is, as a signed 32-bit value; checked when it is used. -/
def execInjSet (f : InjField) (v : Word) (s : State) : Result :=
  gated (.injSet f v) s <| succeeded { s with injF := s.injF.set f v }

/-- INJ.INIT (R195). -/
def execInjInit (s : State) : Result :=
  gated .injInit s <|
    match s.injCheck with
    | some f => faulted s .injectionConfigError (injFieldInfo f)
    | none =>
      match s.srWrite s.injDacBits .injectionDac s.injSlot with
      | .error t => .next t
      | .ok t => succeeded { t with stage := .injDone }

/-- The end of INJ.START: `Idle` to `Armed`, the enable, then `Injecting` (R190, R197). -/
def State.startInjecting (s : State) : State :=
  let armed := { s with injState := .armed }
  let enabled := { armed with injEn := true }.emits [.injEn true]
  { enabled with injState := .injecting }

/-- INJ.START (R197, R198): a no-op while `Injecting`, before any check. -/
def execInjStart (s : State) : Result :=
  gated .injStart s <|
    if s.injState = .injecting then succeeded s
    else
      match s.injCheck with
      | some f => faulted s .injectionConfigError (injFieldInfo f)
      | none =>
        match s.srWrite s.injTimingBits .injectionTiming s.injSlot with
        | .error t => .next t
        | .ok t => succeeded t.startInjecting

/-- INJ.STOP (R199). -/
def execInjStop (s : State) : Result :=
  gated .injStop s <|
    if s.injState = .injecting then
      succeeded { { s with injEn := false }.emits [.injEn false] with injState := .idle }
    else succeeded s

end Sys2Proof.Machine
end

