-- ==== Sys2Proof/Machine/FrameDecoder.lean ====
section
/-! DEFINITION. The Readout Decoder's per-byte state machine (spec/43_readout_decoder.md R168 to R172). -/

namespace Sys2Proof.Machine

/-- What the processing of one byte did, as RD.POLL counts it (R176). -/
inductive DecEvent where
  | nothing
  | record
  | decodeError
  deriving DecidableEq, Repr

/-- One field of a frame: `unpack` of its bits, zero-extended to 32 bits (R172). -/
def frameField (p : Params) (payload : List Byte) (f : FieldSlot) : Word :=
  BitVec.ofNat 32 (unpack (memRead (frombytes payload) f.off f.w) p.orderFrame)

/-- `extract(P)` with `valid = 1` (R171, R172). -/
def extractRecord (p : Params) (payload : List Byte) : HitRecord where
  col := frameField p payload p.frame.col
  row := frameField p payload p.frame.row
  toa := frameField p payload p.frame.toa
  tot := frameField p payload p.frame.tot
  valid := true

/-- The validation of a complete frame: the checks of R171 in its order; `none` is `cause = 0`. -/
def frameCause (p : Params) (body : List Byte) : Option DecCause :=
  if p.frame.hasEnd = true ∧ body[p.frame.payloadLen]? ≠ some p.frame.endMark then some .endMarker
  else if p.checksumOk (body.take p.frame.payloadLen) = false then some .checksum
  else if nCol ≤ (extractRecord p (body.take p.frame.payloadLen)).col.toNat then some .column
  else if nRow ≤ (extractRecord p (body.take p.frame.payloadLen)).row.toNat then some .row
  else none

/-- `emit_frame()` (R171). -/
def emitFrame (s : State) : State × DecEvent :=
  match frameCause s.params s.fbuf with
  | none =>
    ({ s with
       hitq := s.hitq ++ [extractRecord s.params (s.fbuf.take s.params.frame.payloadLen)]
       fbuf := [], skipping := false, decState := .awaitingSync }, .record)
  | some cause =>
    ({ s.recordError with
       lastDecCause := cause
       fbuf := [], skipping := false, decState := .awaitingSync }, .decodeError)

/-- `read_frame(x)` (R170). -/
def readFrame (x : Byte) (s : State) : State × DecEvent :=
  if (s.fbuf ++ [x]).length = s.params.frame.bodyLen then
    emitFrame { s with fbuf := s.fbuf ++ [x], decState := .emitting }
  else ({ s with fbuf := s.fbuf ++ [x] }, .nothing)

/-- `await_sync(x)` (R169). -/
def awaitSync (x : Byte) (s : State) : State × DecEvent :=
  if s.params.frame.hasStart then
    if x = s.params.frame.start then ({ s with skipping := false, decState := .readingFrame }, .nothing)
    else
      ({ s with
         syncLossCount := if s.skipping then s.syncLossCount else satInc s.syncLossCount
         skipping := true }, .nothing)
  else readFrame x { s with decState := .readingFrame }

/-- `dec_byte(x)` (R168). -/
def decByte (x : Byte) (s : State) : State × DecEvent :=
  if s.decState = .awaitingSync then awaitSync x s else readFrame x s

/-- The loop of RD.POLL over the bytes read (R176): the state, the records and the decode errors. -/
def decBytes : List Byte → State → Nat → Nat → State × Nat × Nat
  | [], s, hits, errs => (s, hits, errs)
  | x :: xs, s, hits, errs =>
    match decByte x s with
    | (t, .record) => decBytes xs t (hits + 1) errs
    | (t, .decodeError) => decBytes xs t hits (errs + 1)
    | (t, .nothing) => decBytes xs t hits errs

end Sys2Proof.Machine
end

