-- ==== Sys2Proof/Machine/Readout.lean ====
section
/-! DEFINITION. The commands of the Readout Decoder: RD.PROBE, RD.POLL, HIT.POP (spec/43_readout_decoder.md R175 to
R181). -/

namespace Sys2Proof.Machine

/-- RD.PROBE (R175). -/
def execRdProbe (s : State) : Result := gated .rdProbe s <| succeeded (s.setR0 (boolWord s.hitsPresent))

/-- `m`, the number of bytes RD.POLL reads: no more than HITQ has free places (R176). -/
def State.pollCount (s : State) (n : Word) : Nat :=
  min n.toNat (min s.rxq.length (s.params.hitqCap - s.hitq.length))

/-- The end of RD.POLL: the budget is tested before `maxruns` (R176, R177). -/
def State.closeAfterPoll (s : State) : State :=
  if s.exceeded then s.terminate .budgetExceeded
  else if s.maxRunsEn = true ∧ s.maxRuns.toNat ≤ s.runCount.toNat then s.terminate .maxrunsReached
  else s

/-- RD.POLL after its read (R176): decode all the bytes, write `r[0..2]`, count the run, test for termination. -/
def State.polled (s : State) (bs : List Byte) : State :=
  match decBytes bs s 0 0 with
  | (t, hits, errs) =>
    { t with
      r := { t.r with r0 := BitVec.ofNat 32 bs.length, r1 := BitVec.ofNat 32 hits, r2 := BitVec.ofNat 32 errs }
      runCount := satInc t.runCount }.closeAfterPoll

/-- RD.POLL (R176 to R179). -/
def execRdPoll (n : Word) (s : State) : Result :=
  gated (.rdPoll n) s <|
    match s.rxRead (s.pollCount n) with
    | .error t => .next t
    | .ok (bs, t) => succeeded (t.polled bs)

/-- HIT.POP (R180). -/
def execHitPop (s : State) : Result :=
  gated .hitPop s <|
    match s.hitq with
    | [] => faulted s .bufferError 0
    | h :: rest => succeeded { s with hitq := rest, r := ⟨h.col, h.row, h.toa, h.tot, boolWord h.valid⟩ }

end Sys2Proof.Machine
end

