-- ==== Sys2Proof/Machine/RegisterProtocol.lean ====
section
/-! DEFINITION. The commands of the Register Protocol: SESS.INIT, ASIC.INIT, VB.SET, VB.INIT, REG.READ, SPI.ENABLE,
SESS.CLOSE (spec/42_register_protocol.md R145 to R158). -/

namespace Sys2Proof.Machine

/-- The events of SESS.INIT: INJ_EN falls, then SPI_EN (R145, R146). -/
def State.dropEvents (s : State) : List Event :=
  (if s.injEn then [Event.injEn false] else []) ++ (if s.spiEn then [Event.spiEn false] else [])

/-- SESS.INIT (R145, R146, R246): every element of R51 to its reset value, but `r`, RXQ and OUT. -/
def execSessInit (maxrunsEn : Bool) (maxruns : BitVec 16) (errmax : Word) (s : State) : Result :=
  gated (.sessInit maxrunsEn maxruns errmax) s <|
    succeeded
      { s.hardReset with
        r := s.r
        rxq := s.rxq
        out := s.out ++ s.dropEvents
        stage := .inited
        errMax := errmax
        maxRuns := maxruns
        maxRunsEn := maxrunsEn }

/-- ASIC.INIT (R147): the configuration error is found before the first byte goes out. -/
def execAsicInit (s : State) : Result :=
  gated .asicInit s <|
    match s.encoded with
    | .error info => faulted s .maskShapeError info
    | .ok bits =>
      match { s with cfg := bits, cfgValid := true }.srWrite bits .asicConfig 0 with
      | .error t => .next t
      | .ok t => succeeded { t with stage := .asicDone }

/-- VB.SET (R149). -/
def execVbSet (ch : Byte) (code : Word) (s : State) : Result :=
  gated (.vbSet ch code) s <|
    if ch.toNat < s.params.vbNdac then
      if code.toNat < 2 ^ s.params.vbW then succeeded { s with vbCode := s.vbCode.set ch.toNat code.toNat }
      else faulted s .overflowError code
    else faulted s .configKeyError (byteInfo ch)

/-- VB.INIT (R151). -/
def execVbInit (slot : Byte) (s : State) : Result :=
  gated (.vbInit slot) s <|
    if slot.toNat < s.params.nSlots then
      match s.srWrite s.vbBits .voltageBoard slot with
      | .error t => .next t
      | .ok t => succeeded { t with vbSlot := slot, stage := .voltDone }
    else faulted s .configKeyError (byteInfo slot)

/-- REG.READ (R153): the address byte goes out, BUSY rises; with enough bytes in RXQ there is no hold, else the
command is held with BUSY = 1 and STATUS not yet written. -/
def execRegRead (addr : Byte) (s : State) : Result :=
  gated (.regRead addr) s <|
    match s.txWrite [addr] with
    | .error t => .next t
    | .ok t => if t.responseReady then finishRead { t with busy := true } else .next { t with busy := true }

/-- SPI.ENABLE (R155). -/
def execSpiEnable (s : State) : Result :=
  gated .spiEnable s <| succeeded { { s with spiEn := true }.emits [.spiEn true] with stage := .readout }

/-- SESS.CLOSE (R157). -/
def execSessClose (s : State) : Result := gated .sessClose s <| succeeded (s.terminate .sessClose)

end Sys2Proof.Machine
end

