-- ==== Sys2Proof/Machine/Dispatch.lean ====
section
/-! DEFINITION. One arm per command: its meaning. -/

namespace Sys2Proof.Machine

def exec (i : Instr) (s : State) : Host.Outcome State Fault Refusal :=
  match i with
  | .pack w o v => Sys2Proof.Machine.execPack w o v s
  | .unpack w o => Sys2Proof.Machine.execUnpack w o s
  | .bbClr => Sys2Proof.Machine.execBbClr s
  | .maskPack => Sys2Proof.Machine.execMaskPack s
  | .cfgClr => Sys2Proof.Machine.execCfgClr s
  | .cfgSet half key value => Sys2Proof.Machine.execCfgSet half key value s
  | .maskPut c => Sys2Proof.Machine.execMaskPut c s
  | .maskNone => Sys2Proof.Machine.execMaskNone s
  | .cfgEncode => Sys2Proof.Machine.execCfgEncode s
  | .sessInit en maxruns errmax => Sys2Proof.Machine.execSessInit en maxruns errmax s
  | .asicInit => Sys2Proof.Machine.execAsicInit s
  | .vbSet ch code => Sys2Proof.Machine.execVbSet ch code s
  | .vbInit slot => Sys2Proof.Machine.execVbInit slot s
  | .regRead addr => Sys2Proof.Machine.execRegRead addr s
  | .spiEnable => Sys2Proof.Machine.execSpiEnable s
  | .sessClose => Sys2Proof.Machine.execSessClose s
  | .rdProbe => Sys2Proof.Machine.execRdProbe s
  | .rdPoll n => Sys2Proof.Machine.execRdPoll n s
  | .hitPop => Sys2Proof.Machine.execHitPop s
  | .injSet f v => Sys2Proof.Machine.execInjSet f v s
  | .injInit => Sys2Proof.Machine.execInjInit s
  | .injStart => Sys2Proof.Machine.execInjStart s
  | .injStop => Sys2Proof.Machine.execInjStop s
  | .errRecord => Sys2Proof.Machine.execErrRecord s
  | .errExceeded => Sys2Proof.Machine.execErrExceeded s

end Sys2Proof.Machine
end

