-- ==== Sys2Proof/Machine/Port.lean ====
section
/-! DEFINITION. The command port and the environment (spec/00_scope.md R9, R10; spec/30_encoding.md R87;
spec/42_register_protocol.md R153; spec/70_reset_and_hazards.md R245). APX-CORE fetches nothing and has no program
counter (spec/10_state.md R27): its instructions are the command words the host writes. -/

namespace Sys2Proof.Machine

/-- The handling of a word the port has accepted (R87): an illegal word raises IllegalCommand before anything else
is checked (R85), any other runs its command. -/
def runWord (x : CommandWord) (s : State) : Result :=
  match decode x with
  | .error .unknownOpcode => faulted s .illegalCommand 0
  | .error .reservedBit => faulted s .illegalCommand 1
  | .ok i => exec i s

/-- While BUSY is 1 the port accepts no command and the host waits (R25, R87): the first input that is not a
command, and the inputs left. -/
def nextMove : List Input → Option (Input × List Input)
  | [] => none
  | .command w :: rest =>
    match nextMove rest with
    | none => none
    | some (m, left) => some (m, .command w :: left)
  | .rxArrive b :: rest => some (.rxArrive b, rest)
  | .heldReadFails j :: rest => some (.heldReadFails j, rest)
  | .reset :: rest => some (.reset, rest)

/-- One input taken at a command boundary (R9, R10, R245). A failing of the held read is no move of the
environment while no read is held: it has no effect. -/
def takeInput (m : Input) (s : State) : Result :=
  match m with
  | .command x => runWord x s
  | .rxArrive b => .next (s.rxArrive b)
  | .heldReadFails _ => .next s
  | .reset => .next s.hardReset

/-- One move of the environment, or the reset input, while REG.READ is held (R153, R257). -/
def takeWhileHeld (m : Input) (s : State) : Result :=
  match m with
  | .command _ => .next s
  | .rxArrive b => .next (s.rxArrive b)
  | .heldReadFails j => failHeldRead s j
  | .reset => .next s.hardReset

/-- The core while REG.READ is held (R153): with `RESP_LEN` bytes in RXQ the command completes, else the
environment moves. With no move left the hold lasts for ever (U15, R257). -/
def advanceHeld (s : State) : Result :=
  if s.responseReady then finishRead s
  else
    match nextMove s.inputs with
    | none => .next s
    | some (m, left) => takeWhileHeld m { s with inputs := left }

/-- The core at a command boundary: it takes the next input, and with none it waits for the host (R9). -/
def advanceIdle (s : State) : Result :=
  match s.inputs with
  | [] => .next s
  | m :: rest => takeInput m { s with inputs := rest }

/-- The precondition of the model (U14; R121, R166: "a model takes only well-formed tables"). -/
def whenWellFormed (s : State) (body : Result) : Result :=
  if s.params.wf then body else .refused .illFormedParameters

/-- One step of the block: held in REG.READ, or at a command boundary. -/
def advance (s : State) : Result :=
  match s.busy with
  | true => whenWellFormed s (advanceHeld s)
  | false => whenWellFormed s (advanceIdle s)

/-- The arguments of one step (R20): the parameters, what reaches the block in it if anything does, and the draws with
which the environment answers its transport write and its transport read, where it makes one. -/
def StepArguments.one (p : Params) (m : Option Input) (tx rx : TransportOutcome) : StepArguments where
  params := p
  inputs := m.toList
  txAnswers := [tx]
  rxAnswers := [rx]
  freeAnswers := 0

/-- THE STEP OF R20: from a state of the block to a state of the block, with the parameters, the stream of commands and
the environment's draws as its arguments. The machine's `step` takes them from the pair the host's interface passes
on. -/
def ArchState.stepWith (p : Params) (m : Option Input) (tx rx : TransportOutcome) (a : ArchState) :
    Host.Outcome ArchState Fault Refusal :=
  match advance { toArchState := a, toStepArguments := .one p m tx rx } with
  | .next t => .next t.toArchState
  | .fault f => .fault f
  | .refused x => .refused x

/-- What the next step takes from the inputs: at a command boundary the first of them (R9), in the hold of REG.READ
the first that is no command word (R87). -/
def State.stimulus (s : State) : Option Input :=
  if s.busy then (nextMove s.inputs).map Prod.fst else s.inputs.head?

/-- The state in which the next step takes the command word `x` from the port: the word is the first input, and
the port accepts (BUSY = 0, R87). -/
def State.withCommand (s : State) (x : CommandWord) : State :=
  { s with inputs := .command x :: s.inputs, busy := false }

end Sys2Proof.Machine
end

