-- ==== Sys2Proof/Machine/Step.lean ====
section
/-! DEFINITION. One step of APX-CORE, and the placing of a command word where the next step takes it. -/

namespace Sys2Proof.Machine

/-- One step: a command run to completion or to its hold, one move of the environment, the completion of a held
read, the reset input, or waiting (R9, R10, R153, R245). -/
def step (s : State) : Host.Outcome State Fault Refusal := advance s

/-- `s` with the word of a table row as the next command on the port (R80, R87). -/
def State.withFetchWord (s : State) (nbits w : Nat) : State := s.withCommand (wordOfTable nbits w)

end Sys2Proof.Machine
end

