-- ==== Sys2Proof/Machine/Assembler.lean ====
section
/-! DEFINITION. The assembler's notation and the pseudo-instructions (spec/30_encoding.md R88, R89). Neither has an
encoding or an effect of its own: a line stands for one command, a pseudo-instruction for a list of commands. -/

namespace Sys2Proof.Machine

/-- An operand of an assembler line: a number (decimal or hexadecimal), a name, or a quoted character (R88). -/
inductive Operand where
  | num (v : Int)
  | name (s : String)
  | chr (c : Byte)
  deriving DecidableEq, Repr

/-- A mnemonic and its comma-separated operands, in the order written (R88). -/
structure AsmLine where
  mnemonic : String
  operands : List Operand
  deriving DecidableEq, Repr

/-- A number written for an unsigned field of `n` bits; `none` when it does not fit. -/
def unsignedField (n : Nat) (v : Int) : Option (BitVec n) :=
  if 0 ≤ v ∧ v < 2 ^ n then some (BitVec.ofInt n v) else none

/-- A number written for the signed `imm` of INJ.SET: 32-bit two's complement (R82, R88). -/
def signedField (v : Int) : Option Word :=
  if -(2 ^ 31) ≤ v ∧ v < 2 ^ 31 then some (BitVec.ofInt 32 v) else none

/-- `msb` or `lsb` (R88). -/
def orderName : Operand → Option BitOrder
  | .name "msb" => some .msb
  | .name "lsb" => some .lsb
  | _ => none

/-- `dac` or `bias` (R88). -/
def halfName : Operand → Option Half
  | .name "dac" => some .dac
  | .name "bias" => some .bias
  | _ => none

/-- A key: a key id, or any of the names of a row of `LAYOUT` (R88, R120). -/
def keyOperand (l : Layout) (half : Half) : Operand → Option Byte
  | .num v => unsignedField 8 v
  | .name n => ((l.rows half).findIdx? (fun r => r.names.contains n)).bind (fun k => unsignedField 8 (k : Int))
  | .chr _ => none

/-- A mask character: a byte value or a quoted character (R88). -/
def charOperand : Operand → Option Byte
  | .num v => unsignedField 8 v
  | .chr c => some c
  | .name _ => none

/-- An injection field: an id 0 to 7 or a name of R34 (R88). -/
def injFieldOperand : Operand → Option InjField
  | .num v => if 0 ≤ v ∧ v < 8 then some (injFieldOf (BitVec.ofInt 8 v)) else none
  | .name "amplitude" => some .amplitude
  | .name "offset" => some .offset
  | .name "position" => some .position
  | .name "period" => some .period
  | .name "clkdiv" => some .clkdiv
  | .name "delay" => some .delay
  | .name "duty" => some .duty
  | .name "cycles" => some .cycles
  | _ => none

/-- The command a line stands for: the table of R88. -/
def assemble (l : Layout) (line : AsmLine) : Option Instr :=
  match line.mnemonic, line.operands with
  | "PACK", [.num v, .num w, o] => do
      return .pack (← unsignedField 8 w) (← orderName o) (← unsignedField 32 v)
  | "UNPACK", [.num w, o] => do return .unpack (← unsignedField 8 w) (← orderName o)
  | "BB.CLR", [] => some .bbClr
  | "MASK.PACK", [] => some .maskPack
  | "CFG.CLR", [] => some .cfgClr
  | "CFG.SET", [h, key, .num value] => do
      let half ← halfName h
      return .cfgSet half (← keyOperand l half key) (← unsignedField 32 value)
  | "MASK.PUT", [c] => do return .maskPut (← charOperand c)
  | "MASK.NONE", [] => some .maskNone
  | "CFG.ENCODE", [] => some .cfgEncode
  | "SESS.INIT", [.num errmax] => do return .sessInit false 0 (← unsignedField 32 errmax)
  | "SESS.INIT", [.num errmax, .num maxruns] => do
      return .sessInit true (← unsignedField 16 maxruns) (← unsignedField 32 errmax)
  | "ASIC.INIT", [] => some .asicInit
  | "VB.SET", [.num ch, .num code] => do return .vbSet (← unsignedField 8 ch) (← unsignedField 32 code)
  | "VB.INIT", [.num slot] => do return .vbInit (← unsignedField 8 slot)
  | "REG.READ", [.num addr] => do return .regRead (← unsignedField 8 addr)
  | "SPI.ENABLE", [] => some .spiEnable
  | "SESS.CLOSE", [] => some .sessClose
  | "RD.PROBE", [] => some .rdProbe
  | "RD.POLL", [.num n] => do return .rdPoll (← unsignedField 32 n)
  | "HIT.POP", [] => some .hitPop
  | "INJ.SET", [f, .num v] => do return .injSet (← injFieldOperand f) (← signedField v)
  | "INJ.INIT", [] => some .injInit
  | "INJ.START", [] => some .injStart
  | "INJ.STOP", [] => some .injStop
  | "ERR.RECORD", [] => some .errRecord
  | "ERR.EXCEEDED", [] => some .errExceeded
  | _, _ => none

/-- The document's operation names are aliases of the mnemonics (R89). -/
def documentAlias : String → Option String
  | "pack" => some "PACK"
  | "unpack" => some "UNPACK"
  | "init" => some "SESS.INIT"
  | "asic_init" => some "ASIC.INIT"
  | "init_voltages" => some "VB.INIT"
  | "init_injection" => some "INJ.INIT"
  | "enable_spi" => some "SPI.ENABLE"
  | "hits_present" => some "RD.PROBE"
  | "start_injection" => some "INJ.START"
  | "stop_injection" => some "INJ.STOP"
  | "record_error" => some "ERR.RECORD"
  | "exceeded" => some "ERR.EXCEEDED"
  | _ => none

/-- One entry of a dictionary: a key and its value, as written (R89). -/
abbrev DictEntry := Operand × Int

/-- The pseudo-instructions (R89). -/
inductive Pseudo where
  | maskText (text : List Byte)
  | cfgDict (half : Half) (entries : List DictEntry)
  | encodeMasked (dac bias : List DictEntry) (text : List Byte)
  | encodeUnmasked (dac bias : List DictEntry)
  | injConfig (entries : List DictEntry)
  deriving DecidableEq, Repr

/-- `MASK.TEXT "t"` (R89). -/
def expandMaskText (text : List Byte) : List Instr := .maskNone :: text.map Instr.maskPut

/-- `CFG.DICT half ...`: one CFG.SET for each entry, in the order written (R89). -/
def expandDict (l : Layout) (half : Half) (entries : List DictEntry) : Option (List Instr) :=
  entries.mapM (fun e => do return .cfgSet half (← keyOperand l half e.1) (← unsignedField 32 e.2))

/-- The commands a pseudo-instruction stands for (R89). -/
def Pseudo.expand (l : Layout) : Pseudo → Option (List Instr)
  | .maskText text => some (expandMaskText text)
  | .cfgDict half entries => expandDict l half entries
  | .encodeMasked dac bias text => do
      return [.cfgClr] ++ (← expandDict l .dac dac) ++ (← expandDict l .bias bias) ++ expandMaskText text ++
        [.cfgEncode]
  | .encodeUnmasked dac bias => do
      return [.cfgClr] ++ (← expandDict l .dac dac) ++ (← expandDict l .bias bias) ++ [.maskNone, .cfgEncode]
  | .injConfig entries =>
      entries.mapM (fun e => do return .injSet (← injFieldOperand e.1) (← signedField e.2))

end Sys2Proof.Machine
end

