-- ==== Sys2Proof/Safety.lean ====
section
/-! DEFINITION. What claims call a good state and a safe step: the invariants of spec/10_state.md R52, and the words the
statements use for the causes a command can end with. -/

namespace Sys2Proof.Machine

/-- Every present override fits its slot, and there is one entry per row (R30, R52 item 3). -/
def overridesFit : List LayoutRow → List (Option Nat) → Bool
  | [], [] => true
  | r :: rows, some v :: ovr => decide (v < 2 ^ r.width) && overridesFit rows ovr
  | _ :: rows, none :: ovr => overridesFit rows ovr
  | _, _ => false

/-- A record that a successful decode produced (R52 item 12, R181). -/
def HitRecord.sound (h : HitRecord) : Prop := h.col.toNat < nCol ∧ h.row.toNat < nRow ∧ h.valid = true

/-- The invariants of R52, with the lengths that R30, R32 and R33 fix and the precondition on the parameters
(U14). R52 item 9 (BUSY = 0) says when a command can be issued; what holds of BUSY in every state is that it is 1
only at a stage where REG.READ may run (R25, R232). -/
structure State.Inv (s : State) : Prop where
  paramsWf : s.params.wf = true
  bbWithinCap : s.bb.length ≤ s.params.bbCap
  mtxtWithinCap : s.mtxt.length ≤ mtxtCap
  hitqWithinCap : s.hitq.length ≤ s.params.hitqCap
  fbufWithinBody : s.fbuf.length ≤ s.params.frame.bodyLen
  absentMaskEmpty : s.maskPresent = false → s.mtxt = []
  dacOverridesFit : overridesFit s.params.layout.dac s.ovrDac = true
  biasOverridesFit : overridesFit s.params.layout.bias s.ovrBias = true
  vbCodesCount : s.vbCode.length = s.params.vbNdac
  vbCodesFit : ∀ v ∈ s.vbCode, v < 2 ^ s.params.vbW
  cfgLength : s.cfg.length = s.params.layout.lCfg
  cfgValidEncodes : s.cfgValid = true → s.encoded = .ok s.cfg
  decoderBoundary :
    (s.decState = .awaitingSync ∧ s.fbuf = []) ∨
    (s.decState = .readingFrame ∧ s.fbuf.length < s.params.frame.bodyLen)
  injectionBoundary :
    (s.injState = .idle ∧ s.injEn = false) ∨ (s.injState = .injecting ∧ s.injEn = true)
  latchLow : s.latch = false
  closedIffCause : s.stage = .closed ↔ s.termCause ≠ .notTerminated
  spiOnlyAfterEnable : s.spiEn = true → s.stage = .readout ∨ s.stage = .closed
  recordsSound : ∀ h ∈ s.hitq, h.sound
  busyOnlyInRead : s.busy = true → s.stage.isOpen = true ∧ s.stage ≠ .readout

/-- The causes of a precise fault: all but `OK`, DecodeError (which never stands in STATUS) and TransportError
(R225). -/
def Cause.precise : Cause → Bool
  | .ok => false
  | .overflowError => true
  | .configKeyError => true
  | .maskShapeError => true
  | .injectionConfigError => true
  | .transportError => false
  | .decodeError => false
  | .illegalCommand => true
  | .stageError => true
  | .bufferError => true

/-- A step that does not stop the machine. -/
def State.stepsOn (s : State) : Prop := ∃ t, step s = .next t

end Sys2Proof.Machine
end

