-- ==== Sys2Proof/Certificates/Slice0/Obligations.lean ====
section
/-! DEFINITION. The statements for the provers, one `def Obligations.<Name> : Prop` each. Results are written out as
record updates of the state before, so each also says everything the command leaves unchanged. -/

open Sys2Proof Sys2Proof.Machine

/-! ### Encoding (spec/30_encoding.md) -/

/-- R81 to R83: the decoder reads back every command from its word, whatever its operands. -/
def Obligations.DecodeInvertsEncode : Prop := ∀ i : Instr, decode (encode i) = .ok i

/-- R85, R87: no two words mean one command; a word that decodes is the word of its command. -/
def Obligations.EncodeInvertsDecode : Prop :=
  ∀ (x : CommandWord) (i : Instr), decode x = .ok i → encode i = x

/-- R84: a word is a command exactly when one row of spec/opcode_table.json selects it, and then only that one. -/
def Obligations.DecodesIffOneTableRowSelects : Prop :=
  (∀ x : CommandWord, (∃ i, decode x = .ok i) ↔ ∃ row ∈ opcodeRows, x &&& row.2 = row.1) ∧
  (∀ x : CommandWord, ∀ row ∈ opcodeRows, ∀ row' ∈ opcodeRows,
    x &&& row.2 = row.1 → x &&& row'.2 = row'.1 → row = row')

/-- R90, T8, V-INJ 5, V-REG 2, P1: words written out from the spec decode to the commands they stand for. -/
def Obligations.SpecWordsDecodeToTheirCommands : Prop :=
  decode 0x0108000100000003#64 = .ok (.pack 8 .msb 3) ∧
  decode 0x0203000000000000#64 = .ok (.unpack 3 .lsb) ∧
  decode 0x1101000100000007#64 = .ok (.cfgSet .bias 1 7) ∧
  decode 0x11000000000000C8#64 = .ok (.cfgSet .dac 0 200) ∧
  decode 0x2001000300000000#64 = .ok (.sessInit true 3 0) ∧
  decode 0x22020000000003E8#64 = .ok (.vbSet 2 1000) ∧
  decode 0x2446000000000000#64 = .ok (.regRead 0x46) ∧
  decode 0x3100000000000040#64 = .ok (.rdPoll 64) ∧
  decode 0x40030000FFFFFFFF#64 = .ok (.injSet .period 0xFFFFFFFF) ∧
  decode 0x5100000000000000#64 = .ok .errExceeded

/-- R85: what an illegal word on the port does, in its three cases, in every state that accepts a word. -/
def Obligations.IllegalWordWritesOnlyStatus : Prop :=
  ∀ (s : State) (x : CommandWord) (rest : List Input),
    s.params.wf = true → s.busy = false → s.inputs = .command x :: rest →
    ((∀ row ∈ opcodeRows, x.extractLsb' 56 8 ≠ row.1.extractLsb' 56 8) →
      step s = .next { s with inputs := rest, status := .illegalCommand, errInfo := 0 }) ∧
    ((∃ row ∈ opcodeRows, x.extractLsb' 56 8 = row.1.extractLsb' 56 8 ∧ x &&& row.2 ≠ row.1) →
      step s = .next { s with inputs := rest, status := .illegalCommand, errInfo := 1 }) ∧
    (x &&& 0xFF00FFFE00000000#64 = 0x0100000000000000#64 ∨ x &&& 0xFF00FFFEFFFFFFFF#64 = 0x0200000000000000#64 →
      s.params.wMax < (x.extractLsb' 48 8).toNat →
      step s = .next { s with inputs := rest, status := .illegalCommand, errInfo := 2 })

/-- R9, R87: a word on the port that decodes to a command runs as `exec` of it, in the state without that word. -/
def Obligations.StepRunsTheDecodedCommand : Prop :=
  ∀ (s : State) (x : CommandWord) (rest : List Input) (i : Instr),
    s.params.wf = true → s.busy = false → s.inputs = .command x :: rest → decode x = .ok i →
    step s = exec i { s with inputs := rest }

/-- R25, R87: while BUSY is 1 the port accepts no command: whatever a step does then, every command on the port
is still there, in its order. -/
def Obligations.BusyPortKeepsItsCommands : Prop :=
  ∀ s t : State, s.busy = true → step s = .next t →
    t.inputs.filterMap (fun m => match m with | .command x => some x | _ => none) =
    s.inputs.filterMap (fun m => match m with | .command x => some x | _ => none)

/-! ### The pure functions (spec/40_codec.md, spec/20_memory.md, spec/41_config_encoder.md) -/

/-- R100, R101: `pack` gives exactly the bits of the value, `unpack` sums the weights of the bits. -/
def Obligations.PackAndUnpackAreTheirFormulas : Prop :=
  (∀ (v w : Nat) (o : BitOrder),
    (2 ^ w ≤ v → pack v w o = none) ∧
    (v < 2 ^ w → ∃ s, pack v w o = some s ∧ s.length = w ∧
      ∀ i, i < w → s[i]? = some (match o with | .msb => v.testBit (w - 1 - i) | .lsb => v.testBit i))) ∧
  (∀ s : Bits,
    unpack s .msb = ((List.range s.length).map (fun i => bitValue (s.getD i false) * 2 ^ (s.length - 1 - i))).sum ∧
    unpack s .lsb = ((List.range s.length).map (fun i => bitValue (s.getD i false) * 2 ^ i)).sum ∧
    ∀ o, unpack s o < 2 ^ s.length)

/-- R102: both inverse laws, the reversal law, and what different orders give. -/
def Obligations.PackUnpackInverseLaws : Prop :=
  (∀ (v w : Nat) (o : BitOrder), v < 2 ^ w → ∃ s, pack v w o = some s ∧ unpack s o = v) ∧
  (∀ (s : Bits) (o : BitOrder), pack (unpack s o) s.length o = some s) ∧
  (∀ v w : Nat, pack v w .lsb = (pack v w .msb).map List.reverse) ∧
  (∀ (v w : Nat) (i : Nat), i < w →
    (unpack (packBits v w .msb) .lsb).testBit i = v.testBit (w - 1 - i) ∧
    (unpack (packBits v w .lsb) .msb).testBit i = v.testBit (w - 1 - i))

/-- R67: a slot read back as two fields of the same order gives the high and the low bits for `MSB`, the low and the
high bits for `LSB`. -/
def Obligations.SlotReadAsTwoFieldsSplitsTheValue : Prop :=
  ∀ v w1 w2 : Nat, v < 2 ^ (w1 + w2) →
    (∃ s, pack v (w1 + w2) .msb = some s ∧
      unpack (memRead s 0 w1) .msb = v / 2 ^ w2 ∧ unpack (memRead s w1 w2) .msb = v % 2 ^ w2) ∧
    (∃ s, pack v (w1 + w2) .lsb = some s ∧
      unpack (memRead s 0 w1) .lsb = v % 2 ^ w1 ∧ unpack (memRead s w1 w2) .lsb = v / 2 ^ w1)

/-- R103, R125: the packed mask is row-major, one bit a cell; the mask region is the pattern without a mask, else the
packed grid or the error of the text. -/
def Obligations.MaskRegionIsPatternOrRowMajorGrid : Prop :=
  (∀ g : List Bits, g.length = 35 → (∀ row ∈ g, row.length = 35) →
    (packmask g).length = 1225 ∧
    (∀ row col, row < 35 → col < 35 → (packmask g)[35 * row + col]? = (g[row]?).bind (fun l => l[col]?)) ∧
    ∀ o, packmask g = g.flatMap (fun row => row.flatMap (fun cell => packBits (bitValue cell) 1 o))) ∧
  Params.reference.analogPattern = ones 1225 ∧
  ∀ (p : Params) (text : List Byte),
    maskRegion p false text = .ok p.analogPattern ∧
    (∀ g, parseMask text = .ok g → maskRegion p true text = .ok (packmask g)) ∧
    (∀ info, parseMask text = .error info → maskRegion p true text = .error info)

/-- R64, R65, R66: `tobytes` places each bit and pads with zeros, `frombytes` undoes it up to the padding, and a
response is assembled first byte most significant. -/
def Obligations.BytePackingPlacesEachBit : Prop :=
  (∀ s : Bits,
    (tobytes s).length = (s.length + 7) / 8 ∧
    ∀ j i, j < (s.length + 7) / 8 → i < 8 →
      ((tobytes s).getD j 0).getLsbD (7 - i) = s.getD (8 * j + i) false) ∧
  (∀ bs : List Byte, (frombytes bs).length = 8 * bs.length ∧
    ∀ j i, j < bs.length → i < 8 → (frombytes bs)[8 * j + i]? = some ((bs.getD j 0).getLsbD (7 - i))) ∧
  (∀ s : Bits, frombytes (tobytes s) = s ++ zeros (8 * ((s.length + 7) / 8) - s.length)) ∧
  (∀ bs : List Byte, bs.length ≤ 4 →
    (responseValue bs).toNat =
      ((List.range bs.length).map (fun j => (bs.getD j 0).toNat * 256 ^ (bs.length - 1 - j))).sum)

/-- R124: the texts `parse_mask` accepts are exactly 35 lines of 35 characters `0` or `1` joined by newlines, with
or without one trailing newline, and the grid has a 1 where the text has `1`. -/
def Obligations.ParseMaskAcceptsExactlyTheGrids : Prop :=
  ∀ (text : List Byte) (g : List Bits),
    parseMask text = .ok g ↔
      ∃ lines : List (List Byte),
        lines.length = 35 ∧ (∀ l ∈ lines, l.length = 35 ∧ ∀ c ∈ l, c = 0x30#8 ∨ c = 0x31#8) ∧
        (text = List.intercalate [0x0A#8] lines ∨ text = List.intercalate [0x0A#8] lines ++ [0x0A#8]) ∧
        g = lines.map (fun l => l.map (fun c => c == 0x31#8))

/-- R124, R221: which information word a refused text gives: rows first, then lengths, then characters. -/
def Obligations.ParseMaskReportsTheFirstReason : Prop :=
  ∀ text : List Byte,
    ((maskPieces text).length ≠ 35 →
      parseMask text = .error (BitVec.ofNat 32 (256 + min (maskPieces text).length 255))) ∧
    (∀ row, row < 35 → (maskPieces text).length = 35 →
      (∀ k, k < row → ((maskPieces text).getD k []).length = 35) →
      ((maskPieces text).getD row []).length ≠ 35 →
      parseMask text = .error (BitVec.ofNat 32 (512 + row))) ∧
    (∀ row, row < 35 → (maskPieces text).length = 35 →
      (∀ l ∈ maskPieces text, l.length = 35) →
      (∀ k, k < row → ∀ c ∈ (maskPieces text).getD k [], c = 0x30#8 ∨ c = 0x31#8) →
      (∃ c ∈ (maskPieces text).getD row [], c ≠ 0x30#8 ∧ c ≠ 0x31#8) →
      parseMask text = .error (BitVec.ofNat 32 (768 + row)))

/-- R126: `encode` fails exactly as `mask_region` does; else it gives `L_CFG` bits with the override or the default of
every slot in its slot, and the mask region at its end. -/
def Obligations.EncodeFillsEverySlot : Prop :=
  ∀ (p : Params) (ob od : List (Option Nat)) (present : Bool) (text : List Byte),
    p.wf = true → overridesFit p.layout.bias ob = true → overridesFit p.layout.dac od = true →
    (∀ info, maskRegion p present text = .error info → encodeConfig p ob od present text = .error info) ∧
    (∀ m, maskRegion p present text = .ok m →
      ∃ s, encodeConfig p ob od present text = .ok s ∧
        s.length = p.layout.lCfg ∧
        (∀ (k : Nat) (r : LayoutRow), p.layout.bias[k]? = some r →
          pack (((ob[k]?).join).getD r.defaultCode) r.width p.orderCfg = some (memRead s r.offset r.width)) ∧
        (∀ (k : Nat) (r : LayoutRow), p.layout.dac[k]? = some r →
          pack (((od[k]?).join).getD r.defaultCode) r.width p.orderCfg = some (memRead s r.offset r.width)) ∧
        memRead s p.layout.maskOff maskBits = m)

/-- R127: the default bitstream is the encoding of no override and no mask. -/
def Obligations.DefaultBitsEncodeNoOverrideAndNoMask : Prop :=
  ∀ (p : Params) (text : List Byte), p.wf = true →
    encodeConfig p (List.replicate p.layout.bias.length none) (List.replicate p.layout.dac.length none) false text =
      .ok (defaultBits p)

/-- R128 item 2: an override of either half changes only its own slot. -/
def Obligations.OverrideChangesOnlyItsSlot : Prop :=
  ∀ (p : Params) (ob od : List (Option Nat)) (present : Bool) (text : List Byte) (k v : Nat) (r : LayoutRow)
    (s s' : Bits),
    p.wf = true → overridesFit p.layout.bias ob = true → overridesFit p.layout.dac od = true → v < 2 ^ r.width →
    encodeConfig p ob od present text = .ok s →
    (p.layout.dac[k]? = some r → encodeConfig p ob (od.set k (some v)) present text = .ok s' →
      ∀ i, i < r.offset ∨ r.offset + r.width ≤ i → s'[i]? = s[i]?) ∧
    (p.layout.bias[k]? = some r → encodeConfig p (ob.set k (some v)) od present text = .ok s' →
      ∀ i, i < r.offset ∨ r.offset + r.width ≤ i → s'[i]? = s[i]?)

/-! ### BitField Codec commands -/

/-- R105, R106. -/
def Obligations.PackCommandRule : Prop :=
  ∀ (w : Byte) (o : BitOrder) (v : Word) (s : State),
    (∀ x : CommandWord, decode x = .ok (.pack w o v) ↔ x = assembleWord 0x01#8 w (orderField o) v) ∧
    (s.params.wMax < w.toNat →
      exec (.pack w o v) s = .next { s with status := .illegalCommand, errInfo := 2 }) ∧
    (w.toNat ≤ s.params.wMax → 2 ^ w.toNat ≤ v.toNat →
      exec (.pack w o v) s = .next { s with status := .overflowError, errInfo := v }) ∧
    (w.toNat ≤ s.params.wMax → v.toNat < 2 ^ w.toNat → s.params.bbCap < s.bb.length + w.toNat →
      exec (.pack w o v) s = .next { s with status := .bufferError, errInfo := 1 }) ∧
    (w.toNat ≤ s.params.wMax → v.toNat < 2 ^ w.toNat → s.bb.length + w.toNat ≤ s.params.bbCap →
      exec (.pack w o v) s =
        .next { s with bb := s.bb ++ packBits v.toNat w.toNat o, status := .ok, errInfo := 0 })

/-- R107, R108. -/
def Obligations.UnpackCommandRule : Prop :=
  ∀ (w : Byte) (o : BitOrder) (s : State),
    (∀ x : CommandWord, decode x = .ok (.unpack w o) ↔ x = assembleWord 0x02#8 w (orderField o) 0) ∧
    (s.params.wMax < w.toNat →
      exec (.unpack w o) s = .next { s with status := .illegalCommand, errInfo := 2 }) ∧
    (w.toNat ≤ s.params.wMax → s.bb.length < w.toNat →
      exec (.unpack w o) s = .next { s with status := .bufferError, errInfo := 0 }) ∧
    (w.toNat ≤ s.params.wMax → w.toNat ≤ s.bb.length →
      exec (.unpack w o) s =
        .next { s with
          r := { s.r with r0 := BitVec.ofNat 32 (unpack (s.bb.take w.toNat) o) }
          bb := s.bb.drop w.toNat
          status := .ok
          errInfo := 0 })

/-- R109, R110: BB.CLR and MASK.PACK. -/
def Obligations.BbClrAndMaskPackCommandRules : Prop :=
  ((∀ x : CommandWord, decode x = .ok .bbClr ↔ x = assembleWord 0x03#8 0 0 0) ∧
    ∀ s : State, exec .bbClr s = .next { s with bb := [], status := .ok, errInfo := 0 }) ∧
  ((∀ x : CommandWord, decode x = .ok .maskPack ↔ x = assembleWord 0x04#8 0 0 0) ∧
    ∀ s : State,
      (∀ info, maskRegion s.params s.maskPresent s.mtxt = .error info →
        exec .maskPack s = .next { s with status := .maskShapeError, errInfo := info }) ∧
      (∀ m, maskRegion s.params s.maskPresent s.mtxt = .ok m → s.params.bbCap < s.bb.length + 1225 →
        exec .maskPack s = .next { s with status := .bufferError, errInfo := 1 }) ∧
      (∀ m, maskRegion s.params s.maskPresent s.mtxt = .ok m → s.bb.length + 1225 ≤ s.params.bbCap →
        exec .maskPack s = .next { s with bb := s.bb ++ m, status := .ok, errInfo := 0 }))

/-- R108, R102: the round trip seen through the commands. -/
def Obligations.PackThenUnpackReturnsTheValue : Prop :=
  ∀ (w : Byte) (o : BitOrder) (v : Word) (s t : State),
    s.params.wf = true → w.toNat ≤ s.params.wMax → v.toNat < 2 ^ w.toNat → s.bb = [] →
    exec (.pack w o v) s = .next t →
    exec (.unpack w o) t = .next { s with r := { s.r with r0 := v }, status := .ok, errInfo := 0 }

/-! ### Config Encoder commands -/

/-- R130, R132, R133: CFG.CLR, MASK.PUT (with why the bytes beyond the 1261st do not matter) and MASK.NONE. -/
def Obligations.StagingCommandRules : Prop :=
  ((∀ x : CommandWord, decode x = .ok .cfgClr ↔ x = assembleWord 0x10#8 0 0 0) ∧
    ∀ s : State,
      exec .cfgClr s = .next { s with
        ovrDac := List.replicate s.params.layout.dac.length none
        ovrBias := List.replicate s.params.layout.bias.length none
        cfgValid := false
        status := .ok
        errInfo := 0 }) ∧
  (∀ (c : Byte) (s : State),
      (∀ x : CommandWord, decode x = .ok (.maskPut c) ↔ x = assembleWord 0x12#8 c 0 0) ∧
      (s.mtxt.length < 1261 →
        exec (.maskPut c) s = .next { s with
          maskPresent := true, mtxt := s.mtxt ++ [c], cfgValid := false, status := .ok, errInfo := 0 }) ∧
      (1261 ≤ s.mtxt.length →
        exec (.maskPut c) s = .next { s with maskPresent := true, cfgValid := false, status := .ok, errInfo := 0 })) ∧
  (∀ (text : List Byte) (g : List Bits), parseMask text = .ok g → text.length ≤ 1260) ∧
  ((∀ x : CommandWord, decode x = .ok .maskNone ↔ x = assembleWord 0x13#8 0 0 0) ∧
    ∀ s : State,
      exec .maskNone s = .next { s with
        maskPresent := false, mtxt := [], cfgValid := false, status := .ok, errInfo := 0 })

/-- R131: CFG.SET. -/
def Obligations.CfgSetCommandRule : Prop :=
  ∀ (key : Byte) (value : Word) (s : State),
    (∀ x : CommandWord, decode x = .ok (.cfgSet .dac key value) ↔ x = assembleWord 0x11#8 key 0 value) ∧
    (∀ x : CommandWord, decode x = .ok (.cfgSet .bias key value) ↔ x = assembleWord 0x11#8 key 1 value) ∧
    (s.params.layout.dac.length ≤ key.toNat →
      exec (.cfgSet .dac key value) s = .next { s with status := .configKeyError, errInfo := key.setWidth 32 }) ∧
    (s.params.layout.bias.length ≤ key.toNat →
      exec (.cfgSet .bias key value) s = .next { s with status := .configKeyError, errInfo := key.setWidth 32 }) ∧
    (∀ r, s.params.layout.dac[key.toNat]? = some r → 2 ^ r.width ≤ value.toNat →
      exec (.cfgSet .dac key value) s = .next { s with status := .overflowError, errInfo := value }) ∧
    (∀ r, s.params.layout.bias[key.toNat]? = some r → 2 ^ r.width ≤ value.toNat →
      exec (.cfgSet .bias key value) s = .next { s with status := .overflowError, errInfo := value }) ∧
    (∀ r, s.params.layout.dac[key.toNat]? = some r → value.toNat < 2 ^ r.width →
      exec (.cfgSet .dac key value) s = .next { s with
        ovrDac := s.ovrDac.set key.toNat (some value.toNat), cfgValid := false, status := .ok, errInfo := 0 }) ∧
    (∀ r, s.params.layout.bias[key.toNat]? = some r → value.toNat < 2 ^ r.width →
      exec (.cfgSet .bias key value) s = .next { s with
        ovrBias := s.ovrBias.set key.toNat (some value.toNat), cfgValid := false, status := .ok, errInfo := 0 })

/-- R134: CFG.ENCODE. -/
def Obligations.CfgEncodeCommandRule : Prop :=
  (∀ x : CommandWord, decode x = .ok .cfgEncode ↔ x = assembleWord 0x14#8 0 0 0) ∧
  ∀ s : State,
    (∀ info, encodeConfig s.params s.ovrBias s.ovrDac s.maskPresent s.mtxt = .error info →
      exec .cfgEncode s = .next { s with status := .maskShapeError, errInfo := info }) ∧
    (∀ bits, encodeConfig s.params s.ovrBias s.ovrDac s.maskPresent s.mtxt = .ok bits →
      exec .cfgEncode s = .next { s with cfg := bits, cfgValid := true, status := .ok, errInfo := 0 })

/-- R135: which commands set CFG_VALID, and which clear it. -/
def Obligations.CfgValidIsSetAndClearedAsListed : Prop :=
  ∀ (i : Instr) (s t : State), exec i s = .next t →
    (s.cfgValid = false → t.cfgValid = true → i = .cfgEncode ∨ i = .asicInit) ∧
    (s.cfgValid = true → t.cfgValid = false →
      i = .cfgClr ∨ i = .maskNone ∨ (∃ c, i = .maskPut c) ∨ (∃ h k v, i = .cfgSet h k v ∧ t.status = .ok) ∨
      ∃ en m e, i = .sessInit en m e)

/-! ### Transport and Register Protocol (spec/42_register_protocol.md) -/

/-- R141, R142: `tx_write` sends all its bytes or a prefix, `rx_read` takes bytes from the front or loses some. -/
def Obligations.TransportCallsSucceedOrLeaveAPrefix : Prop :=
  (∀ (s u : State) (bs : List Byte),
      (s.answerTx = (.ok, u) → s.txWrite bs = .ok { u with out := s.out ++ bs.map Event.txByte }) ∧
      (∀ k, s.answerTx = (.fail k, u) → ∃ j, j ≤ bs.length ∧ (k ≤ bs.length → j = k) ∧
        s.txWrite bs = .error { u with
          out := s.out ++ (bs.take j).map Event.txByte, status := .transportError, errInfo := 0 })) ∧
  (∀ (s u : State) (m : Nat), m ≤ s.rxq.length →
      (s.answerRx = (.ok, u) → s.rxRead m = .ok (s.rxq.take m, { u with rxq := s.rxq.drop m })) ∧
      (∀ k, s.answerRx = (.fail k, u) → ∃ j, j ≤ m ∧ (k ≤ m → j = k) ∧
        s.rxRead m = .error { u with rxq := s.rxq.drop j, status := .transportError, errInfo := 1 }))

/-- R143: `sr_write`. -/
def Obligations.SrWritePulsesTheLatchOnlyAfterAllBytes : Prop :=
  ∀ (s u : State) (bits : Bits) (t : LatchTarget) (p : Byte),
    (s.answerTx = (.ok, u) →
      s.srWrite bits t p = .ok { u with
        out := s.out ++ (tobytes bits).map Event.txByte ++ [.latch t p true, .latch t p false]
        latchT := t, latchP := p, latch := false }) ∧
    (∀ k, s.answerTx = (.fail k, u) →
      s.srWrite bits t p = .error { u with
        out := s.out ++ ((tobytes bits).take k).map Event.txByte, status := .transportError, errInfo := 0 })

/-- R145, R146: SESS.INIT. -/
def Obligations.SessInitCommandRule : Prop :=
  ∀ (en : Bool) (maxruns : BitVec 16) (errmax : Word) (s : State),
    (∀ x : CommandWord, decode x = .ok (.sessInit en maxruns errmax) ↔
      x = assembleWord 0x20#8 (if en then 1 else 0) maxruns errmax) ∧
    exec (.sessInit en maxruns errmax) s =
      .next { State.resetOf s.params with
        r := s.r
        rxq := s.rxq
        out := s.out ++ (if s.injEn then [.injEn false] else []) ++ (if s.spiEn then [.spiEn false] else [])
        stage := .inited
        errMax := errmax
        maxRuns := maxruns
        maxRunsEn := en
        status := .ok
        errInfo := 0
        inputs := s.inputs
        txAnswers := s.txAnswers
        rxAnswers := s.rxAnswers
        freeAnswers := s.freeAnswers }

/-- R147, R226: ASIC.INIT. -/
def Obligations.AsicInitCommandRule : Prop :=
  (∀ x : CommandWord, decode x = .ok .asicInit ↔ x = assembleWord 0x21#8 0 0 0) ∧
  ∀ s : State,
    (s.stage ≠ .inited →
      exec .asicInit s = .next { s with status := .stageError, errInfo := s.stage.code.setWidth 32 }) ∧
    (∀ info, s.stage = .inited → s.encoded = .error info →
      exec .asicInit s = .next { s with status := .maskShapeError, errInfo := info }) ∧
    (∀ bits u k, s.stage = .inited → s.encoded = .ok bits → s.answerTx = (.fail k, u) →
      exec .asicInit s = .next { s with
        cfg := bits
        cfgValid := true
        out := s.out ++ ((tobytes bits).take k).map Event.txByte
        status := .transportError
        errInfo := 0
        txAnswers := u.txAnswers
        freeAnswers := u.freeAnswers }) ∧
    (∀ bits u, s.stage = .inited → s.encoded = .ok bits → s.answerTx = (.ok, u) →
      exec .asicInit s = .next { s with
        cfg := bits
        cfgValid := true
        out := s.out ++ (tobytes bits).map Event.txByte ++ [.latch .asicConfig 0 true, .latch .asicConfig 0 false]
        latch := false
        latchT := .asicConfig
        latchP := 0
        stage := .asicDone
        status := .ok
        errInfo := 0
        txAnswers := u.txAnswers
        freeAnswers := u.freeAnswers })

/-- R149: VB.SET. -/
def Obligations.VbSetCommandRule : Prop :=
  ∀ (ch : Byte) (code : Word) (s : State),
    (∀ x : CommandWord, decode x = .ok (.vbSet ch code) ↔ x = assembleWord 0x22#8 ch 0 code) ∧
    (s.params.vbNdac ≤ ch.toNat →
      exec (.vbSet ch code) s = .next { s with status := .configKeyError, errInfo := ch.setWidth 32 }) ∧
    (ch.toNat < s.params.vbNdac → 2 ^ s.params.vbW ≤ code.toNat →
      exec (.vbSet ch code) s = .next { s with status := .overflowError, errInfo := code }) ∧
    (ch.toNat < s.params.vbNdac → code.toNat < 2 ^ s.params.vbW →
      exec (.vbSet ch code) s = .next { s with
        vbCode := s.vbCode.set ch.toNat code.toNat, status := .ok, errInfo := 0 })

/-- R150, R151: VB.INIT. -/
def Obligations.VbInitCommandRule : Prop :=
  ∀ (slot : Byte) (s : State),
    (∀ x : CommandWord, decode x = .ok (.vbInit slot) ↔ x = assembleWord 0x23#8 slot 0 0) ∧
    (s.stage ≠ .asicDone →
      exec (.vbInit slot) s = .next { s with status := .stageError, errInfo := s.stage.code.setWidth 32 }) ∧
    (s.stage = .asicDone → s.params.nSlots ≤ slot.toNat →
      exec (.vbInit slot) s = .next { s with status := .configKeyError, errInfo := slot.setWidth 32 }) ∧
    (∀ u k, s.stage = .asicDone → slot.toNat < s.params.nSlots → s.answerTx = (.fail k, u) →
      exec (.vbInit slot) s = .next { s with
        out := s.out ++ ((tobytes (s.vbCode.flatMap
          (fun c => packBits c s.params.vbW s.params.orderCfg))).take k).map Event.txByte
        status := .transportError
        errInfo := 0
        txAnswers := u.txAnswers
        freeAnswers := u.freeAnswers }) ∧
    (∀ u, s.stage = .asicDone → slot.toNat < s.params.nSlots → s.answerTx = (.ok, u) →
      exec (.vbInit slot) s = .next { s with
        out := s.out ++ (tobytes (s.vbCode.flatMap
          (fun c => packBits c s.params.vbW s.params.orderCfg))).map Event.txByte ++
          [.latch .voltageBoard slot true, .latch .voltageBoard slot false]
        latch := false
        latchT := .voltageBoard
        latchP := slot
        vbSlot := slot
        stage := .voltDone
        status := .ok
        errInfo := 0
        txAnswers := u.txAnswers
        freeAnswers := u.freeAnswers })

/-- R153, R226: REG.READ up to its hold. -/
def Obligations.RegReadCommandRule : Prop :=
  ∀ (addr : Byte) (s : State),
    (∀ x : CommandWord, decode x = .ok (.regRead addr) ↔ x = assembleWord 0x24#8 addr 0 0) ∧
    (s.stage = .reset ∨ s.stage = .readout ∨ s.stage = .closed →
      exec (.regRead addr) s = .next { s with status := .stageError, errInfo := s.stage.code.setWidth 32 }) ∧
    (∀ u k, s.stage ≠ .reset → s.stage ≠ .readout → s.stage ≠ .closed → s.answerTx = (.fail k, u) →
      exec (.regRead addr) s = .next { s with
        out := s.out ++ (if k = 0 then [] else [.txByte addr])
        status := .transportError
        errInfo := 0
        txAnswers := u.txAnswers
        freeAnswers := u.freeAnswers }) ∧
    (∀ u, s.stage ≠ .reset → s.stage ≠ .readout → s.stage ≠ .closed → s.answerTx = (.ok, u) →
      s.rxq.length < s.params.respLen →
      exec (.regRead addr) s = .next { s with
        out := s.out ++ [.txByte addr]
        busy := true
        txAnswers := u.txAnswers
        freeAnswers := u.freeAnswers }) ∧
    (∀ u v, s.stage ≠ .reset → s.stage ≠ .readout → s.stage ≠ .closed → s.answerTx = (.ok, u) →
      s.params.respLen ≤ s.rxq.length → u.answerRx = (.ok, v) →
      exec (.regRead addr) s = .next { s with
        out := s.out ++ [.txByte addr]
        busy := false
        r := { s.r with r0 := responseValue (s.rxq.take s.params.respLen) }
        rxq := s.rxq.drop s.params.respLen
        status := .ok
        errInfo := 0
        txAnswers := u.txAnswers
        rxAnswers := v.rxAnswers
        freeAnswers := v.freeAnswers }) ∧
    (∀ u v j, s.stage ≠ .reset → s.stage ≠ .readout → s.stage ≠ .closed → s.answerTx = (.ok, u) →
      s.params.respLen ≤ s.rxq.length → u.answerRx = (.fail j, v) →
      exec (.regRead addr) s = .next { s with
        out := s.out ++ [.txByte addr]
        busy := false
        rxq := s.rxq.drop (min j s.params.respLen)
        status := .transportError
        errInfo := 1
        txAnswers := u.txAnswers
        rxAnswers := v.rxAnswers
        freeAnswers := v.freeAnswers })

/-- R153, R257: how the hold of REG.READ goes on and ends, step by step. -/
def Obligations.HeldReadGoesOnAndEnds : Prop :=
  ∀ s : State, s.params.wf = true → s.busy = true →
    (∀ u, s.params.respLen ≤ s.rxq.length → s.answerRx = (.ok, u) →
      step s = .next { s with
        busy := false
        r := { s.r with r0 := responseValue (s.rxq.take s.params.respLen) }
        rxq := s.rxq.drop s.params.respLen
        status := .ok
        errInfo := 0
        rxAnswers := u.rxAnswers
        freeAnswers := u.freeAnswers }) ∧
    (∀ u j, s.params.respLen ≤ s.rxq.length → s.answerRx = (.fail j, u) →
      step s = .next { s with
        busy := false
        rxq := s.rxq.drop (min j s.params.respLen)
        status := .transportError
        errInfo := 1
        rxAnswers := u.rxAnswers
        freeAnswers := u.freeAnswers }) ∧
    (∀ b left, s.rxq.length < s.params.respLen → nextMove s.inputs = some (.rxArrive b, left) →
      step s = .next { s with rxq := s.rxq ++ [b], inputs := left }) ∧
    (∀ j left, s.rxq.length < s.params.respLen → nextMove s.inputs = some (.heldReadFails j, left) →
      step s = .next { s with
        rxq := s.rxq.drop j, busy := false, status := .transportError, errInfo := 1, inputs := left }) ∧
    (s.rxq.length < s.params.respLen → nextMove s.inputs = none → step s = .next s)

/-- R155, R157: SPI.ENABLE and SESS.CLOSE. -/
def Obligations.SpiEnableAndSessCloseCommandRules : Prop :=
  ((∀ x : CommandWord, decode x = .ok .spiEnable ↔ x = assembleWord 0x25#8 0 0 0) ∧
    ∀ s : State,
      (s.stage ≠ .injDone →
        exec .spiEnable s = .next { s with status := .stageError, errInfo := s.stage.code.setWidth 32 }) ∧
      (s.stage = .injDone →
        exec .spiEnable s = .next { s with
          spiEn := true, out := s.out ++ [.spiEn true], stage := .readout, status := .ok, errInfo := 0 })) ∧
  ((∀ x : CommandWord, decode x = .ok .sessClose ↔ x = assembleWord 0x26#8 0 0 0) ∧
    ∀ s : State,
      (s.stage = .reset ∨ s.stage = .closed →
        exec .sessClose s = .next { s with status := .stageError, errInfo := s.stage.code.setWidth 32 }) ∧
      (s.stage ≠ .reset → s.stage ≠ .closed →
        exec .sessClose s = .next { s with
          stage := .closed, termCause := .sessClose, status := .ok, errInfo := 0 }))

/-! ### Readout Decoder (spec/43_readout_decoder.md) -/

/-- R169, R170, with the end of `emit_frame` (R171): one byte in `AwaitingSync`, with a start marker or framed by
length alone, and one byte in `ReadingFrame`. -/
def Obligations.DecodeByteRules : Prop :=
  (∀ (x : Byte) (s : State), s.decState = .awaitingSync →
      (s.params.frame.hasStart = true → x = s.params.frame.start →
        decByte x s = ({ s with skipping := false, decState := .readingFrame }, .nothing)) ∧
      (s.params.frame.hasStart = true → x ≠ s.params.frame.start → s.skipping = true →
        decByte x s = (s, .nothing)) ∧
      (s.params.frame.hasStart = true → x ≠ s.params.frame.start → s.skipping = false →
        decByte x s = ({ s with syncLossCount := satInc s.syncLossCount, skipping := true }, .nothing)) ∧
      (s.params.frame.hasStart = false → decByte x s = readFrame x { s with decState := .readingFrame })) ∧
  (∀ (x : Byte) (s : State), s.decState = .readingFrame →
      (s.fbuf.length + 1 ≠ s.params.frame.bodyLen →
        decByte x s = ({ s with fbuf := s.fbuf ++ [x] }, .nothing)) ∧
      (s.fbuf.length + 1 = s.params.frame.bodyLen → frameCause s.params (s.fbuf ++ [x]) = none →
        decByte x s = ({ s with
          hitq := s.hitq ++ [extractRecord s.params ((s.fbuf ++ [x]).take s.params.frame.payloadLen)]
          fbuf := []
          skipping := false
          decState := .awaitingSync }, .record)) ∧
      (∀ c, s.fbuf.length + 1 = s.params.frame.bodyLen → frameCause s.params (s.fbuf ++ [x]) = some c →
        decByte x s = ({ s with
          lastDecCause := c
          errCount := satInc s.errCount
          fbuf := []
          skipping := false
          decState := .awaitingSync }, .decodeError)))

/-- R171, R172: the validation of a whole frame in its order, with or without an end marker; what `emit_frame` does with
it, for every state; and each field as the `unpack` of its bits. -/
def Obligations.FrameValidationAndExtraction : Prop :=
  (∀ (p : Params) (body : List Byte),
      let payload := body.take p.frame.payloadLen
      let endOk := p.frame.hasEnd = false ∨ body[p.frame.payloadLen]? = some p.frame.endMark
      (frameCause p body = some .endMarker ↔ ¬ endOk) ∧
      (frameCause p body = some .checksum ↔ endOk ∧ p.checksumOk payload = false) ∧
      (frameCause p body = some .column ↔
        endOk ∧ p.checksumOk payload = true ∧ 35 ≤ (extractRecord p payload).col.toNat) ∧
      (frameCause p body = some .row ↔
        endOk ∧ p.checksumOk payload = true ∧ (extractRecord p payload).col.toNat < 35 ∧
          35 ≤ (extractRecord p payload).row.toNat) ∧
      (frameCause p body = none ↔
        endOk ∧ p.checksumOk payload = true ∧ (extractRecord p payload).col.toNat < 35 ∧
          (extractRecord p payload).row.toNat < 35)) ∧
  (∀ s : State,
      (frameCause s.params s.fbuf = none →
        emitFrame s = ({ s with
          hitq := s.hitq ++ [extractRecord s.params (s.fbuf.take s.params.frame.payloadLen)]
          fbuf := []
          skipping := false
          decState := .awaitingSync }, .record)) ∧
      (∀ c n, frameCause s.params s.fbuf = some c → n.toNat = min (s.errCount.toNat + 1) (2 ^ 32 - 1) →
        emitFrame s = ({ s with
          lastDecCause := c
          errCount := n
          fbuf := []
          skipping := false
          decState := .awaitingSync }, .decodeError))) ∧
  (∀ (p : Params) (payload : List Byte), p.wf = true →
      (extractRecord p payload).col.toNat =
        unpack (memRead (frombytes payload) p.frame.col.off p.frame.col.w) p.orderFrame ∧
      (extractRecord p payload).row.toNat =
        unpack (memRead (frombytes payload) p.frame.row.off p.frame.row.w) p.orderFrame ∧
      (extractRecord p payload).toa.toNat =
        unpack (memRead (frombytes payload) p.frame.toa.off p.frame.toa.w) p.orderFrame ∧
      (extractRecord p payload).tot.toNat =
        unpack (memRead (frombytes payload) p.frame.tot.off p.frame.tot.w) p.orderFrame ∧
      (extractRecord p payload).valid = true)

/-- R174: after any input whatever, `BODY_LEN` bytes that differ from the start marker bring the decoder back to
`AwaitingSync` with FBUF empty. -/
def Obligations.DecoderResynchronises : Prop :=
  ∀ (s : State) (bs : List Byte) (hits errs : Nat),
    s.Inv → s.params.frame.hasStart = true →
    bs.length = s.params.frame.bodyLen → (∀ b ∈ bs, b ≠ s.params.frame.start) →
    (decBytes bs s hits errs).1.decState = .awaitingSync ∧ (decBytes bs s hits errs).1.fbuf = []

/-- R174, T5: a frame that fails validation between two good frames costs one decode error and nothing else: two
records, and the decoder back where it was. -/
def Obligations.OneBadFrameCostsOneError : Prop :=
  ∀ (s : State) (good bad good' : List Byte) (c : DecCause),
    s.Inv → s.decState = .awaitingSync → s.params.frame.hasStart = true →
    good.length = s.params.frame.bodyLen → bad.length = s.params.frame.bodyLen →
    good'.length = s.params.frame.bodyLen →
    frameCause s.params good = none → frameCause s.params bad = some c → frameCause s.params good' = none →
    decBytes (s.params.frame.start :: good ++ s.params.frame.start :: bad ++ s.params.frame.start :: good') s 0 0 =
      ({ s with
          hitq := s.hitq ++ [extractRecord s.params (good.take s.params.frame.payloadLen),
            extractRecord s.params (good'.take s.params.frame.payloadLen)]
          errCount := satInc s.errCount
          lastDecCause := c
          skipping := false }, 2, 1)

/-- R175, R180: RD.PROBE and HIT.POP. -/
def Obligations.RdProbeAndHitPopCommandRules : Prop :=
  ((∀ x : CommandWord, decode x = .ok .rdProbe ↔ x = assembleWord 0x30#8 0 0 0) ∧
    ∀ s : State,
      (s.stage = .reset ∨ s.stage = .closed →
        exec .rdProbe s = .next { s with status := .stageError, errInfo := s.stage.code.setWidth 32 }) ∧
      (s.stage ≠ .reset → s.stage ≠ .closed →
        exec .rdProbe s = .next { s with
          r := { s.r with r0 := if s.params.rxThresh < s.rxq.length then 1 else 0 }, status := .ok, errInfo := 0 })) ∧
  ((∀ x : CommandWord, decode x = .ok .hitPop ↔ x = assembleWord 0x32#8 0 0 0) ∧
    ∀ s : State,
      (s.hitq = [] → exec .hitPop s = .next { s with status := .bufferError, errInfo := 0 }) ∧
      (∀ h rest, s.hitq = h :: rest →
        exec .hitPop s = .next { s with
          hitq := rest
          r := { r0 := h.col, r1 := h.row, r2 := h.toa, r3 := h.tot, r4 := if h.valid then 1 else 0 }
          status := .ok
          errInfo := 0 }))

/-- R176, R177, R178: RD.POLL. -/
def Obligations.RdPollCommandRule : Prop :=
  ∀ (n : Word) (s : State),
    let m := min n.toNat (min s.rxq.length (s.params.hitqCap - s.hitq.length))
    (∀ x : CommandWord, decode x = .ok (.rdPoll n) ↔ x = assembleWord 0x31#8 0 0 n) ∧
    (s.stage ≠ .readout →
      exec (.rdPoll n) s = .next { s with status := .stageError, errInfo := s.stage.code.setWidth 32 }) ∧
    (∀ u j, s.stage = .readout → s.answerRx = (.fail j, u) →
      exec (.rdPoll n) s = .next { s with
        rxq := s.rxq.drop (min j m)
        status := .transportError
        errInfo := 1
        rxAnswers := u.rxAnswers
        freeAnswers := u.freeAnswers }) ∧
    (∀ u t hits errs, s.stage = .readout → s.answerRx = (.ok, u) →
      decBytes (s.rxq.take m) { u with rxq := s.rxq.drop m } 0 0 = (t, hits, errs) →
      exec (.rdPoll n) s = .next { s with
        r := { s.r with r0 := BitVec.ofNat 32 m, r1 := BitVec.ofNat 32 hits, r2 := BitVec.ofNat 32 errs }
        rxq := s.rxq.drop m
        decState := t.decState
        fbuf := t.fbuf
        skipping := t.skipping
        syncLossCount := t.syncLossCount
        lastDecCause := t.lastDecCause
        hitq := t.hitq
        errCount := t.errCount
        runCount := satInc s.runCount
        stage := if s.errMax.toNat < t.errCount.toNat ∨
          (s.maxRunsEn = true ∧ s.maxRuns.toNat ≤ (satInc s.runCount).toNat) then .closed else .readout
        termCause := if s.errMax.toNat < t.errCount.toNat then .budgetExceeded
          else if s.maxRunsEn = true ∧ s.maxRuns.toNat ≤ (satInc s.runCount).toNat then .maxrunsReached
          else s.termCause
        status := .ok
        errInfo := 0
        rxAnswers := u.rxAnswers
        freeAnswers := u.freeAnswers })

/-- R176: what RD.POLL counts: one record or one error a byte at most, so HITQ keeps within its capacity; the
records are appended at the back, and ERR_COUNT rises with the errors up to its saturation. -/
def Obligations.PollCountsMatchTheDecoder : Prop :=
  ∀ (bs : List Byte) (s t : State) (hits errs : Nat),
    decBytes bs s 0 0 = (t, hits, errs) →
    hits + errs ≤ bs.length ∧
    (∃ new, t.hitq = s.hitq ++ new ∧ new.length = hits) ∧
    t.errCount.toNat = min (s.errCount.toNat + errs) (2 ^ 32 - 1)

/-! ### Injection Controller (spec/44_injection.md) -/

/-- R191: `inj_check` reports the first field out of range, in field order. -/
def Obligations.InjCheckReportsTheFirstBadField : Prop :=
  ∀ (s : State),
    let width := fun f : InjField => match f with
      | .amplitude => s.params.injDacW
      | .offset => s.params.injDacW
      | .position => 0
      | .period => s.params.wPer
      | .clkdiv => s.params.wDiv
      | .delay => s.params.wDly
      | .duty => s.params.wDuty
      | .cycles => s.params.wCyc
    let bad := fun f => (s.injF.get f).toInt < 0 ∨
      (f ≠ .position ∧ 2 ^ width f - 1 < (s.injF.get f).toInt) ∨
      (f = .position ∧ (s.params.nSlots : Int) - 1 < (s.injF.get f).toInt)
    (s.injCheck = none ↔ ∀ f, ¬ bad f) ∧
    ∀ f, s.injCheck = some f ↔ bad f ∧ ∀ g, (injFieldId g).toNat < (injFieldId f).toNat → ¬ bad g

/-- R193, R199: INJ.SET and INJ.STOP. -/
def Obligations.InjSetAndInjStopCommandRules : Prop :=
  (∀ (f : InjField) (v : Word) (s : State),
      (∀ x : CommandWord, decode x = .ok (.injSet f v) ↔ x = assembleWord 0x40#8 (injFieldId f) 0 v) ∧
      (∃ t, exec (.injSet f v) s = .next t ∧
        t = { s with injF := t.injF, status := .ok, errInfo := 0 } ∧
        t.injF.get f = v ∧ ∀ g, g ≠ f → t.injF.get g = s.injF.get g)) ∧
  ((∀ x : CommandWord, decode x = .ok .injStop ↔ x = assembleWord 0x43#8 0 0 0) ∧
    ∀ s : State,
      (s.stage ≠ .injDone → s.stage ≠ .readout → s.stage ≠ .closed →
        exec .injStop s = .next { s with status := .stageError, errInfo := s.stage.code.setWidth 32 }) ∧
      (s.stage = .injDone ∨ s.stage = .readout ∨ s.stage = .closed → s.injState = .injecting →
        exec .injStop s = .next { s with
          injEn := false, out := s.out ++ [.injEn false], injState := .idle, status := .ok, errInfo := 0 }) ∧
      (s.stage = .injDone ∨ s.stage = .readout ∨ s.stage = .closed → s.injState ≠ .injecting →
        exec .injStop s = .next { s with status := .ok, errInfo := 0 }))

/-- R192, R195: INJ.INIT. -/
def Obligations.InjInitCommandRule : Prop :=
  (∀ x : CommandWord, decode x = .ok .injInit ↔ x = assembleWord 0x41#8 0 0 0) ∧
  ∀ s : State,
    let bytes := tobytes (packBits s.injF.amplitude.toNat s.params.injDacW s.params.orderCfg ++
      packBits s.injF.offset.toNat s.params.injDacW s.params.orderCfg)
    (s.stage ≠ .voltDone →
      exec .injInit s = .next { s with status := .stageError, errInfo := s.stage.code.setWidth 32 }) ∧
    (∀ f, s.stage = .voltDone → s.injCheck = some f →
      exec .injInit s = .next { s with
        status := .injectionConfigError, errInfo := (injFieldId f).setWidth 32 }) ∧
    (∀ u k, s.stage = .voltDone → s.injCheck = none → s.answerTx = (.fail k, u) →
      exec .injInit s = .next { s with
        out := s.out ++ (bytes.take k).map Event.txByte
        status := .transportError
        errInfo := 0
        txAnswers := u.txAnswers
        freeAnswers := u.freeAnswers }) ∧
    (∀ u, s.stage = .voltDone → s.injCheck = none → s.answerTx = (.ok, u) →
      exec .injInit s = .next { s with
        out := s.out ++ bytes.map Event.txByte ++
          [.latch .injectionDac (s.injF.position.setWidth 8) true,
           .latch .injectionDac (s.injF.position.setWidth 8) false]
        latch := false
        latchT := .injectionDac
        latchP := s.injF.position.setWidth 8
        stage := .injDone
        status := .ok
        errInfo := 0
        txAnswers := u.txAnswers
        freeAnswers := u.freeAnswers })

/-- R192, R197: INJ.START. -/
def Obligations.InjStartCommandRule : Prop :=
  (∀ x : CommandWord, decode x = .ok .injStart ↔ x = assembleWord 0x42#8 0 0 0) ∧
  ∀ s : State,
    let bytes := tobytes (packBits s.injF.period.toNat s.params.wPer s.params.orderCfg ++
      packBits s.injF.clkdiv.toNat s.params.wDiv s.params.orderCfg ++
      packBits s.injF.delay.toNat s.params.wDly s.params.orderCfg ++
      packBits s.injF.duty.toNat s.params.wDuty s.params.orderCfg ++
      packBits s.injF.cycles.toNat s.params.wCyc s.params.orderCfg)
    (s.stage ≠ .injDone → s.stage ≠ .readout →
      exec .injStart s = .next { s with status := .stageError, errInfo := s.stage.code.setWidth 32 }) ∧
    (s.stage = .injDone ∨ s.stage = .readout → s.injState = .injecting →
      exec .injStart s = .next { s with status := .ok, errInfo := 0 }) ∧
    (∀ f, s.stage = .injDone ∨ s.stage = .readout → s.injState ≠ .injecting → s.injCheck = some f →
      exec .injStart s = .next { s with
        status := .injectionConfigError, errInfo := (injFieldId f).setWidth 32 }) ∧
    (∀ u k, s.stage = .injDone ∨ s.stage = .readout → s.injState ≠ .injecting → s.injCheck = none →
      s.answerTx = (.fail k, u) →
      exec .injStart s = .next { s with
        out := s.out ++ (bytes.take k).map Event.txByte
        status := .transportError
        errInfo := 0
        txAnswers := u.txAnswers
        freeAnswers := u.freeAnswers }) ∧
    (∀ u, s.stage = .injDone ∨ s.stage = .readout → s.injState ≠ .injecting → s.injCheck = none →
      s.answerTx = (.ok, u) →
      exec .injStart s = .next { s with
        out := s.out ++ bytes.map Event.txByte ++
          [.latch .injectionTiming (s.injF.position.setWidth 8) true,
           .latch .injectionTiming (s.injF.position.setWidth 8) false, .injEn true]
        latch := false
        latchT := .injectionTiming
        latchP := s.injF.position.setWidth 8
        injState := .injecting
        injEn := true
        status := .ok
        errInfo := 0
        txAnswers := u.txAnswers
        freeAnswers := u.freeAnswers })

/-- R198, T7: a second INJ.START after one that succeeded changes nothing but the status. -/
def Obligations.InjStartTwiceEnablesOnce : Prop :=
  ∀ s t : State, exec .injStart s = .next t → t.status = .ok → exec .injStart t = .next t

/-! ### Error Budget (spec/45_error_budget.md) -/

/-- R211 to R214: ERR.RECORD and ERR.EXCEEDED. -/
def Obligations.ErrorBudgetCommandRules : Prop :=
  ((∀ x : CommandWord, decode x = .ok .errRecord ↔ x = assembleWord 0x50#8 0 0 0) ∧
    ∀ s : State,
      (s.stage = .reset ∨ s.stage = .closed →
        exec .errRecord s = .next { s with status := .stageError, errInfo := s.stage.code.setWidth 32 }) ∧
      (∀ c : Word, s.stage ≠ .reset → s.stage ≠ .closed → c.toNat = min (s.errCount.toNat + 1) (2 ^ 32 - 1) →
        exec .errRecord s = .next { s with
          errCount := c
          r := { s.r with r0 := c }
          stage := if s.errMax.toNat < c.toNat then .closed else s.stage
          termCause := if s.errMax.toNat < c.toNat then .budgetExceeded else s.termCause
          status := .ok
          errInfo := 0 })) ∧
  ((∀ x : CommandWord, decode x = .ok .errExceeded ↔ x = assembleWord 0x51#8 0 0 0) ∧
    ∀ s : State,
      exec .errExceeded s = .next { s with
        r := { s.r with r0 := if s.errMax.toNat < s.errCount.toNat then 1 else 0 }, status := .ok, errInfo := 0 })

/-- R210: between two SESS.INIT commands ERR_COUNT never goes down, and ERRMAX changes by SESS.INIT alone. -/
def Obligations.OnlySessInitLowersTheErrorCount : Prop :=
  ∀ (i : Instr) (s t : State), exec i s = .next t → (∀ en m e, i ≠ .sessInit en m e) →
    s.errCount.toNat ≤ t.errCount.toNat ∧ t.errMax = s.errMax

/-! ### Faults, stages, reset: rules over all commands -/

/-- R225: a command that ends with a precise fault has changed nothing but STATUS and ERR_INFO. (BUSY is 0 when the
command is accepted and when it has ended, R87, R153.) -/
def Obligations.PreciseFaultsChangeOnlyStatus : Prop :=
  ∀ (i : Instr) (s t : State), s.busy = false → exec i s = .next t → t.busy = false → t.status.precise = true →
    t = { s with status := t.status, errInfo := t.errInfo }

/-- R232: which command is legal at which stage; elsewhere it raises StageError(STAGE) and changes nothing
else. The numbers of STAGE that ERR_INFO reports are those of R24, and those of STATUS are R220's. -/
def Obligations.StageGateTable : Prop :=
  (∀ (i : Instr) (s : State),
    let legal := match i with
      | .asicInit => s.stage ∈ [Stage.inited]
      | .vbInit _ => s.stage ∈ [Stage.asicDone]
      | .injInit => s.stage ∈ [Stage.voltDone]
      | .spiEnable => s.stage ∈ [Stage.injDone]
      | .regRead _ => s.stage ∈ [Stage.inited, .asicDone, .voltDone, .injDone]
      | .rdProbe => s.stage ∈ [Stage.inited, .asicDone, .voltDone, .injDone, .readout]
      | .rdPoll _ => s.stage ∈ [Stage.readout]
      | .injStart => s.stage ∈ [Stage.injDone, .readout]
      | .injStop => s.stage ∈ [Stage.injDone, .readout, .closed]
      | .errRecord => s.stage ∈ [Stage.inited, .asicDone, .voltDone, .injDone, .readout]
      | .sessClose => s.stage ∈ [Stage.inited, .asicDone, .voltDone, .injDone, .readout]
      | _ => True
    (¬ legal → exec i s = .next { s with status := .stageError, errInfo := s.stage.code.setWidth 32 }) ∧
    (legal → s.busy = false → ∀ t, exec i s = .next t → t.busy = false → t.status ≠ .stageError)) ∧
  (Stage.reset.code = 0 ∧ Stage.inited.code = 1 ∧ Stage.asicDone.code = 2 ∧ Stage.voltDone.code = 3 ∧
    Stage.injDone.code = 4 ∧ Stage.readout.code = 5 ∧ Stage.closed.code = 6) ∧
  (Cause.ok.code = 0 ∧ Cause.overflowError.code = 1 ∧ Cause.configKeyError.code = 2 ∧
    Cause.maskShapeError.code = 3 ∧ Cause.injectionConfigError.code = 4 ∧ Cause.transportError.code = 5 ∧
    Cause.decodeError.code = 6 ∧ Cause.illegalCommand.code = 7 ∧ Cause.stageError.code = 8 ∧
    Cause.bufferError.code = 9)

/-- R24, R233: every change of STAGE that a command can make. -/
def Obligations.StageMovesOnlyAsListed : Prop :=
  ∀ (i : Instr) (s t : State), exec i s = .next t → t.stage ≠ s.stage →
    (t.stage = .inited ∧ ∃ en m e, i = .sessInit en m e) ∨
    (s.stage = .inited ∧ t.stage = .asicDone ∧ i = .asicInit) ∨
    (s.stage = .asicDone ∧ t.stage = .voltDone ∧ ∃ slot, i = .vbInit slot) ∨
    (s.stage = .voltDone ∧ t.stage = .injDone ∧ i = .injInit) ∨
    (s.stage = .injDone ∧ t.stage = .readout ∧ i = .spiEnable) ∨
    (t.stage = .closed ∧ (i = .sessClose ∨ i = .errRecord ∨ ∃ n, i = .rdPoll n))

/-- R21: only the seven commands of its table write a result register, and a command that faults writes none. -/
def Obligations.ResultRegistersChangeOnlyAsListed : Prop :=
  ∀ (i : Instr) (s t : State), exec i s = .next t → t.r ≠ s.r →
    t.status = .ok ∧
    ((∃ w o, i = .unpack w o) ∨ (∃ a, i = .regRead a) ∨ i = .rdProbe ∨ (∃ n, i = .rdPoll n) ∨ i = .hitPop ∨
      i = .errRecord ∨ i = .errExceeded) ∧
    (i ≠ .hitPop → t.r.r3 = s.r.r3 ∧ t.r.r4 = s.r.r4) ∧
    (i ≠ .hitPop → (∀ n, i ≠ .rdPoll n) → t.r.r1 = s.r.r1 ∧ t.r.r2 = s.r.r2)

/-- R47, R226, R143: OUT is history, a command only adds to its end; and a command that ends with TransportError has
pulsed no latch and raised no enable: all it added to OUT is bytes. -/
def Obligations.OutIsHistoryAndFailedWritesPulseNothing : Prop :=
  (∀ (i : Instr) (s t : State), exec i s = .next t → ∃ evs, t.out = s.out ++ evs) ∧
  (∀ (i : Instr) (s t : State), s.busy = false → exec i s = .next t → t.busy = false →
      t.status = .transportError →
      (∃ bs : List Byte, t.out = s.out ++ bs.map Event.txByte) ∧
      t.stage = s.stage ∧ t.injState = s.injState ∧ t.injEn = s.injEn ∧ t.r = s.r ∧ t.hitq = s.hitq ∧
      t.errCount = s.errCount ∧ t.runCount = s.runCount ∧ t.vbSlot = s.vbSlot)

/-- R200: the injection commands do not touch the readout, and RD.POLL does not touch the injection. -/
def Obligations.InjectionAndReadoutAreIndependent : Prop :=
  (∀ (i : Instr) (s t : State), i = .injStart ∨ i = .injStop → exec i s = .next t →
    t.decState = s.decState ∧ t.fbuf = s.fbuf ∧ t.skipping = s.skipping ∧ t.syncLossCount = s.syncLossCount ∧
    t.lastDecCause = s.lastDecCause ∧ t.hitq = s.hitq ∧ t.errCount = s.errCount ∧ t.errMax = s.errMax ∧
    t.runCount = s.runCount) ∧
  (∀ (n : Word) (s t : State), exec (.rdPoll n) s = .next t →
    t.injState = s.injState ∧ t.injEn = s.injEn ∧ t.injF = s.injF)

/-- R51: every element after reset, in the machine's reset state and in that of any implementation; and the
numbers of the named values of R26, R35, R36, R40 and R44 that the table speaks of. -/
def Obligations.ResetPutsEveryElementAtItsValue : Prop :=
  (∀ s : State, (s = State.reset ∨ ∃ p, s = State.resetOf p) →
    s.r = ⟨0, 0, 0, 0, 0⟩ ∧ s.status = .ok ∧ s.errInfo = 0 ∧ s.stage.code = 0 ∧ s.busy = false ∧
    s.termCause.code = 0 ∧ s.bb = [] ∧ (∀ x ∈ s.ovrDac, x = none) ∧ (∀ x ∈ s.ovrBias, x = none) ∧
    s.ovrDac.length = s.params.layout.dac.length ∧ s.ovrBias.length = s.params.layout.bias.length ∧
    s.maskPresent = false ∧ s.mtxt = [] ∧ s.cfg = zeros s.params.layout.lCfg ∧ s.cfgValid = false ∧
    s.vbCode = s.params.vbDefault ∧ s.vbSlot = 0 ∧ (∀ f, s.injF.get f = 0) ∧ s.injState.code = 0 ∧
    s.decState.code = 0 ∧ s.fbuf = [] ∧ s.skipping = false ∧ s.syncLossCount = 0 ∧ s.lastDecCause.code = 0 ∧
    s.hitq = [] ∧ s.errCount = 0 ∧ s.errMax = 0 ∧ s.runCount = 0 ∧ s.maxRuns = 0 ∧ s.maxRunsEn = false ∧
    s.latch = false ∧ s.latchT.code = 0 ∧ s.latchP = 0 ∧ s.injEn = false ∧ s.spiEn = false ∧ s.out = [] ∧
    s.rxq = []) ∧
  (TermCause.notTerminated.code = 0 ∧ TermCause.budgetExceeded.code = 1 ∧ TermCause.maxrunsReached.code = 2 ∧
    TermCause.sessClose.code = 3) ∧
  (InjState.idle.code = 0 ∧ InjState.armed.code = 1 ∧ InjState.injecting.code = 2) ∧
  (DecState.awaitingSync.code = 0 ∧ DecState.readingFrame.code = 1 ∧ DecState.emitting.code = 2) ∧
  (DecCause.noneYet.code = 0 ∧ DecCause.endMarker.code = 1 ∧ DecCause.checksum.code = 2 ∧ DecCause.column.code = 3 ∧
    DecCause.row.code = 4) ∧
  (LatchTarget.asicConfig.code = 0 ∧ LatchTarget.voltageBoard.code = 1 ∧ LatchTarget.injectionDac.code = 2 ∧
    LatchTarget.injectionTiming.code = 3)

/-- R10, R48, R245, R257: the reset input, at a command boundary and in the hold of REG.READ, and `RxArrive` at a
command boundary. -/
def Obligations.ResetInputAndArrivals : Prop :=
  (∀ (s : State) (left : List Input), s.params.wf = true →
      (s.busy = false → s.inputs = .reset :: left →
        step s = .next { State.resetOf s.params with
          inputs := left, txAnswers := s.txAnswers, rxAnswers := s.rxAnswers, freeAnswers := s.freeAnswers }) ∧
      (s.busy = true → s.rxq.length < s.params.respLen → nextMove s.inputs = some (.reset, left) →
        step s = .next { State.resetOf s.params with
          inputs := left, txAnswers := s.txAnswers, rxAnswers := s.rxAnswers, freeAnswers := s.freeAnswers })) ∧
  (∀ (s : State) (b : Byte) (rest : List Input),
      s.params.wf = true → s.busy = false → s.inputs = .rxArrive b :: rest →
      step s = .next { s with rxq := s.rxq ++ [b], inputs := rest })

/-- R52 at reset. -/
def Obligations.InvariantsHoldAtReset : Prop := State.reset.Inv

/-- R52: every step keeps the invariants, from every state that has them. -/
def Obligations.EveryStepKeepsTheInvariants : Prop :=
  ∀ s t : State, s.Inv → step s = .next t → t.Inv

/-- R20 with the model's choice (log entries 1 to 4) and U14: with well-formed parameters no step stops, and none changes
the parameters; with others the model refuses. What a step does to the block's own state is the step of R20: it takes
the parameters, one input and one draw for either transport call as arguments, and nothing else beside the state. -/
def Obligations.StepsExactlyWithWellFormedParameters : Prop :=
  (∀ s : State,
    (s.params.wf = true → ∃ t, step s = .next t ∧ t.params = s.params) ∧
    (s.params.wf = false → step s = .refused .illFormedParameters)) ∧
  (∀ s t : State, step s = .next t →
    t.txAnswers <:+ s.txAnswers ∧ t.rxAnswers <:+ s.rxAnswers ∧
    ∃ tx rx, s.toArchState.stepWith s.params s.stimulus tx rx = .next t.toArchState ∧
      (∀ x rest, s.txAnswers = x :: rest → tx = x) ∧ (∀ x rest, s.rxAnswers = x :: rest → rx = x)) ∧
  (∀ (p : Params) (m : Option Input) (tx rx : TransportOutcome) (a b : ArchState),
    a.stepWith p m tx rx = .next b →
    ∃ s t : State, s.toArchState = a ∧ s.params = p ∧ step s = .next t ∧ t.toArchState = b)

/-- R89: the pseudo-instruction MASK.TEXT, run on the machine, leaves exactly its text in the mask store. -/
def Obligations.MaskTextLoadsItsText : Prop :=
  ∀ (s : State) (text : List Byte), text.length ≤ 1261 → text ≠ [] →
    (expandMaskText text).foldl
      (fun (r : Host.Outcome State Fault Refusal) i => match r with | .next u => exec i u | other => other)
      (.next s) =
    .next { s with maskPresent := true, mtxt := text, cfgValid := false, status := .ok, errInfo := 0 }
end

