-- ==== Sys2Proof/Laws/State.lean ====
section
/-! SUPPORT. The named updates of the state, field by field: one lemma a field and an update, so that no later proof
unfolds an update. -/

namespace Sys2Proof.Machine

variable (s : State)

@[simp] theorem State.raise_r (c : Cause) (info : Word) : (s.raise c info).r = s.r := rfl
@[simp] theorem State.raise_status (c : Cause) (info : Word) : (s.raise c info).status = c := rfl
@[simp] theorem State.raise_errInfo (c : Cause) (info : Word) : (s.raise c info).errInfo = info := rfl
@[simp] theorem State.raise_stage (c : Cause) (info : Word) : (s.raise c info).stage = s.stage := rfl
@[simp] theorem State.raise_busy (c : Cause) (info : Word) : (s.raise c info).busy = s.busy := rfl
@[simp] theorem State.raise_termCause (c : Cause) (info : Word) : (s.raise c info).termCause = s.termCause := rfl
@[simp] theorem State.raise_bb (c : Cause) (info : Word) : (s.raise c info).bb = s.bb := rfl
@[simp] theorem State.raise_ovrDac (c : Cause) (info : Word) : (s.raise c info).ovrDac = s.ovrDac := rfl
@[simp] theorem State.raise_ovrBias (c : Cause) (info : Word) : (s.raise c info).ovrBias = s.ovrBias := rfl
@[simp] theorem State.raise_maskPresent (c : Cause) (info : Word) : (s.raise c info).maskPresent = s.maskPresent := rfl
@[simp] theorem State.raise_mtxt (c : Cause) (info : Word) : (s.raise c info).mtxt = s.mtxt := rfl
@[simp] theorem State.raise_cfg (c : Cause) (info : Word) : (s.raise c info).cfg = s.cfg := rfl
@[simp] theorem State.raise_cfgValid (c : Cause) (info : Word) : (s.raise c info).cfgValid = s.cfgValid := rfl
@[simp] theorem State.raise_vbCode (c : Cause) (info : Word) : (s.raise c info).vbCode = s.vbCode := rfl
@[simp] theorem State.raise_vbSlot (c : Cause) (info : Word) : (s.raise c info).vbSlot = s.vbSlot := rfl
@[simp] theorem State.raise_injF (c : Cause) (info : Word) : (s.raise c info).injF = s.injF := rfl
@[simp] theorem State.raise_injState (c : Cause) (info : Word) : (s.raise c info).injState = s.injState := rfl
@[simp] theorem State.raise_decState (c : Cause) (info : Word) : (s.raise c info).decState = s.decState := rfl
@[simp] theorem State.raise_fbuf (c : Cause) (info : Word) : (s.raise c info).fbuf = s.fbuf := rfl
@[simp] theorem State.raise_skipping (c : Cause) (info : Word) : (s.raise c info).skipping = s.skipping := rfl
@[simp] theorem State.raise_syncLossCount (c : Cause) (info : Word) : (s.raise c info).syncLossCount = s.syncLossCount := rfl
@[simp] theorem State.raise_lastDecCause (c : Cause) (info : Word) : (s.raise c info).lastDecCause = s.lastDecCause := rfl
@[simp] theorem State.raise_hitq (c : Cause) (info : Word) : (s.raise c info).hitq = s.hitq := rfl
@[simp] theorem State.raise_errCount (c : Cause) (info : Word) : (s.raise c info).errCount = s.errCount := rfl
@[simp] theorem State.raise_errMax (c : Cause) (info : Word) : (s.raise c info).errMax = s.errMax := rfl
@[simp] theorem State.raise_runCount (c : Cause) (info : Word) : (s.raise c info).runCount = s.runCount := rfl
@[simp] theorem State.raise_maxRuns (c : Cause) (info : Word) : (s.raise c info).maxRuns = s.maxRuns := rfl
@[simp] theorem State.raise_maxRunsEn (c : Cause) (info : Word) : (s.raise c info).maxRunsEn = s.maxRunsEn := rfl
@[simp] theorem State.raise_latch (c : Cause) (info : Word) : (s.raise c info).latch = s.latch := rfl
@[simp] theorem State.raise_latchT (c : Cause) (info : Word) : (s.raise c info).latchT = s.latchT := rfl
@[simp] theorem State.raise_latchP (c : Cause) (info : Word) : (s.raise c info).latchP = s.latchP := rfl
@[simp] theorem State.raise_injEn (c : Cause) (info : Word) : (s.raise c info).injEn = s.injEn := rfl
@[simp] theorem State.raise_spiEn (c : Cause) (info : Word) : (s.raise c info).spiEn = s.spiEn := rfl
@[simp] theorem State.raise_out (c : Cause) (info : Word) : (s.raise c info).out = s.out := rfl
@[simp] theorem State.raise_rxq (c : Cause) (info : Word) : (s.raise c info).rxq = s.rxq := rfl
@[simp] theorem State.raise_params (c : Cause) (info : Word) : (s.raise c info).params = s.params := rfl
@[simp] theorem State.raise_inputs (c : Cause) (info : Word) : (s.raise c info).inputs = s.inputs := rfl
@[simp] theorem State.raise_txAnswers (c : Cause) (info : Word) : (s.raise c info).txAnswers = s.txAnswers := rfl
@[simp] theorem State.raise_rxAnswers (c : Cause) (info : Word) : (s.raise c info).rxAnswers = s.rxAnswers := rfl
@[simp] theorem State.raise_freeAnswers (c : Cause) (info : Word) : (s.raise c info).freeAnswers = s.freeAnswers := rfl

@[simp] theorem State.succeed_r : (s.succeed).r = s.r := rfl
@[simp] theorem State.succeed_status : (s.succeed).status = .ok := rfl
@[simp] theorem State.succeed_errInfo : (s.succeed).errInfo = 0 := rfl
@[simp] theorem State.succeed_stage : (s.succeed).stage = s.stage := rfl
@[simp] theorem State.succeed_busy : (s.succeed).busy = s.busy := rfl
@[simp] theorem State.succeed_termCause : (s.succeed).termCause = s.termCause := rfl
@[simp] theorem State.succeed_bb : (s.succeed).bb = s.bb := rfl
@[simp] theorem State.succeed_ovrDac : (s.succeed).ovrDac = s.ovrDac := rfl
@[simp] theorem State.succeed_ovrBias : (s.succeed).ovrBias = s.ovrBias := rfl
@[simp] theorem State.succeed_maskPresent : (s.succeed).maskPresent = s.maskPresent := rfl
@[simp] theorem State.succeed_mtxt : (s.succeed).mtxt = s.mtxt := rfl
@[simp] theorem State.succeed_cfg : (s.succeed).cfg = s.cfg := rfl
@[simp] theorem State.succeed_cfgValid : (s.succeed).cfgValid = s.cfgValid := rfl
@[simp] theorem State.succeed_vbCode : (s.succeed).vbCode = s.vbCode := rfl
@[simp] theorem State.succeed_vbSlot : (s.succeed).vbSlot = s.vbSlot := rfl
@[simp] theorem State.succeed_injF : (s.succeed).injF = s.injF := rfl
@[simp] theorem State.succeed_injState : (s.succeed).injState = s.injState := rfl
@[simp] theorem State.succeed_decState : (s.succeed).decState = s.decState := rfl
@[simp] theorem State.succeed_fbuf : (s.succeed).fbuf = s.fbuf := rfl
@[simp] theorem State.succeed_skipping : (s.succeed).skipping = s.skipping := rfl
@[simp] theorem State.succeed_syncLossCount : (s.succeed).syncLossCount = s.syncLossCount := rfl
@[simp] theorem State.succeed_lastDecCause : (s.succeed).lastDecCause = s.lastDecCause := rfl
@[simp] theorem State.succeed_hitq : (s.succeed).hitq = s.hitq := rfl
@[simp] theorem State.succeed_errCount : (s.succeed).errCount = s.errCount := rfl
@[simp] theorem State.succeed_errMax : (s.succeed).errMax = s.errMax := rfl
@[simp] theorem State.succeed_runCount : (s.succeed).runCount = s.runCount := rfl
@[simp] theorem State.succeed_maxRuns : (s.succeed).maxRuns = s.maxRuns := rfl
@[simp] theorem State.succeed_maxRunsEn : (s.succeed).maxRunsEn = s.maxRunsEn := rfl
@[simp] theorem State.succeed_latch : (s.succeed).latch = s.latch := rfl
@[simp] theorem State.succeed_latchT : (s.succeed).latchT = s.latchT := rfl
@[simp] theorem State.succeed_latchP : (s.succeed).latchP = s.latchP := rfl
@[simp] theorem State.succeed_injEn : (s.succeed).injEn = s.injEn := rfl
@[simp] theorem State.succeed_spiEn : (s.succeed).spiEn = s.spiEn := rfl
@[simp] theorem State.succeed_out : (s.succeed).out = s.out := rfl
@[simp] theorem State.succeed_rxq : (s.succeed).rxq = s.rxq := rfl
@[simp] theorem State.succeed_params : (s.succeed).params = s.params := rfl
@[simp] theorem State.succeed_inputs : (s.succeed).inputs = s.inputs := rfl
@[simp] theorem State.succeed_txAnswers : (s.succeed).txAnswers = s.txAnswers := rfl
@[simp] theorem State.succeed_rxAnswers : (s.succeed).rxAnswers = s.rxAnswers := rfl
@[simp] theorem State.succeed_freeAnswers : (s.succeed).freeAnswers = s.freeAnswers := rfl

@[simp] theorem State.emits_r (evs : List Event) : (s.emits evs).r = s.r := rfl
@[simp] theorem State.emits_status (evs : List Event) : (s.emits evs).status = s.status := rfl
@[simp] theorem State.emits_errInfo (evs : List Event) : (s.emits evs).errInfo = s.errInfo := rfl
@[simp] theorem State.emits_stage (evs : List Event) : (s.emits evs).stage = s.stage := rfl
@[simp] theorem State.emits_busy (evs : List Event) : (s.emits evs).busy = s.busy := rfl
@[simp] theorem State.emits_termCause (evs : List Event) : (s.emits evs).termCause = s.termCause := rfl
@[simp] theorem State.emits_bb (evs : List Event) : (s.emits evs).bb = s.bb := rfl
@[simp] theorem State.emits_ovrDac (evs : List Event) : (s.emits evs).ovrDac = s.ovrDac := rfl
@[simp] theorem State.emits_ovrBias (evs : List Event) : (s.emits evs).ovrBias = s.ovrBias := rfl
@[simp] theorem State.emits_maskPresent (evs : List Event) : (s.emits evs).maskPresent = s.maskPresent := rfl
@[simp] theorem State.emits_mtxt (evs : List Event) : (s.emits evs).mtxt = s.mtxt := rfl
@[simp] theorem State.emits_cfg (evs : List Event) : (s.emits evs).cfg = s.cfg := rfl
@[simp] theorem State.emits_cfgValid (evs : List Event) : (s.emits evs).cfgValid = s.cfgValid := rfl
@[simp] theorem State.emits_vbCode (evs : List Event) : (s.emits evs).vbCode = s.vbCode := rfl
@[simp] theorem State.emits_vbSlot (evs : List Event) : (s.emits evs).vbSlot = s.vbSlot := rfl
@[simp] theorem State.emits_injF (evs : List Event) : (s.emits evs).injF = s.injF := rfl
@[simp] theorem State.emits_injState (evs : List Event) : (s.emits evs).injState = s.injState := rfl
@[simp] theorem State.emits_decState (evs : List Event) : (s.emits evs).decState = s.decState := rfl
@[simp] theorem State.emits_fbuf (evs : List Event) : (s.emits evs).fbuf = s.fbuf := rfl
@[simp] theorem State.emits_skipping (evs : List Event) : (s.emits evs).skipping = s.skipping := rfl
@[simp] theorem State.emits_syncLossCount (evs : List Event) : (s.emits evs).syncLossCount = s.syncLossCount := rfl
@[simp] theorem State.emits_lastDecCause (evs : List Event) : (s.emits evs).lastDecCause = s.lastDecCause := rfl
@[simp] theorem State.emits_hitq (evs : List Event) : (s.emits evs).hitq = s.hitq := rfl
@[simp] theorem State.emits_errCount (evs : List Event) : (s.emits evs).errCount = s.errCount := rfl
@[simp] theorem State.emits_errMax (evs : List Event) : (s.emits evs).errMax = s.errMax := rfl
@[simp] theorem State.emits_runCount (evs : List Event) : (s.emits evs).runCount = s.runCount := rfl
@[simp] theorem State.emits_maxRuns (evs : List Event) : (s.emits evs).maxRuns = s.maxRuns := rfl
@[simp] theorem State.emits_maxRunsEn (evs : List Event) : (s.emits evs).maxRunsEn = s.maxRunsEn := rfl
@[simp] theorem State.emits_latch (evs : List Event) : (s.emits evs).latch = s.latch := rfl
@[simp] theorem State.emits_latchT (evs : List Event) : (s.emits evs).latchT = s.latchT := rfl
@[simp] theorem State.emits_latchP (evs : List Event) : (s.emits evs).latchP = s.latchP := rfl
@[simp] theorem State.emits_injEn (evs : List Event) : (s.emits evs).injEn = s.injEn := rfl
@[simp] theorem State.emits_spiEn (evs : List Event) : (s.emits evs).spiEn = s.spiEn := rfl
@[simp] theorem State.emits_out (evs : List Event) : (s.emits evs).out = s.out ++ evs := rfl
@[simp] theorem State.emits_rxq (evs : List Event) : (s.emits evs).rxq = s.rxq := rfl
@[simp] theorem State.emits_params (evs : List Event) : (s.emits evs).params = s.params := rfl
@[simp] theorem State.emits_inputs (evs : List Event) : (s.emits evs).inputs = s.inputs := rfl
@[simp] theorem State.emits_txAnswers (evs : List Event) : (s.emits evs).txAnswers = s.txAnswers := rfl
@[simp] theorem State.emits_rxAnswers (evs : List Event) : (s.emits evs).rxAnswers = s.rxAnswers := rfl
@[simp] theorem State.emits_freeAnswers (evs : List Event) : (s.emits evs).freeAnswers = s.freeAnswers := rfl

@[simp] theorem State.setR0_r (v : Word) : (s.setR0 v).r = { s.r with r0 := v } := rfl
@[simp] theorem State.setR0_status (v : Word) : (s.setR0 v).status = s.status := rfl
@[simp] theorem State.setR0_errInfo (v : Word) : (s.setR0 v).errInfo = s.errInfo := rfl
@[simp] theorem State.setR0_stage (v : Word) : (s.setR0 v).stage = s.stage := rfl
@[simp] theorem State.setR0_busy (v : Word) : (s.setR0 v).busy = s.busy := rfl
@[simp] theorem State.setR0_termCause (v : Word) : (s.setR0 v).termCause = s.termCause := rfl
@[simp] theorem State.setR0_bb (v : Word) : (s.setR0 v).bb = s.bb := rfl
@[simp] theorem State.setR0_ovrDac (v : Word) : (s.setR0 v).ovrDac = s.ovrDac := rfl
@[simp] theorem State.setR0_ovrBias (v : Word) : (s.setR0 v).ovrBias = s.ovrBias := rfl
@[simp] theorem State.setR0_maskPresent (v : Word) : (s.setR0 v).maskPresent = s.maskPresent := rfl
@[simp] theorem State.setR0_mtxt (v : Word) : (s.setR0 v).mtxt = s.mtxt := rfl
@[simp] theorem State.setR0_cfg (v : Word) : (s.setR0 v).cfg = s.cfg := rfl
@[simp] theorem State.setR0_cfgValid (v : Word) : (s.setR0 v).cfgValid = s.cfgValid := rfl
@[simp] theorem State.setR0_vbCode (v : Word) : (s.setR0 v).vbCode = s.vbCode := rfl
@[simp] theorem State.setR0_vbSlot (v : Word) : (s.setR0 v).vbSlot = s.vbSlot := rfl
@[simp] theorem State.setR0_injF (v : Word) : (s.setR0 v).injF = s.injF := rfl
@[simp] theorem State.setR0_injState (v : Word) : (s.setR0 v).injState = s.injState := rfl
@[simp] theorem State.setR0_decState (v : Word) : (s.setR0 v).decState = s.decState := rfl
@[simp] theorem State.setR0_fbuf (v : Word) : (s.setR0 v).fbuf = s.fbuf := rfl
@[simp] theorem State.setR0_skipping (v : Word) : (s.setR0 v).skipping = s.skipping := rfl
@[simp] theorem State.setR0_syncLossCount (v : Word) : (s.setR0 v).syncLossCount = s.syncLossCount := rfl
@[simp] theorem State.setR0_lastDecCause (v : Word) : (s.setR0 v).lastDecCause = s.lastDecCause := rfl
@[simp] theorem State.setR0_hitq (v : Word) : (s.setR0 v).hitq = s.hitq := rfl
@[simp] theorem State.setR0_errCount (v : Word) : (s.setR0 v).errCount = s.errCount := rfl
@[simp] theorem State.setR0_errMax (v : Word) : (s.setR0 v).errMax = s.errMax := rfl
@[simp] theorem State.setR0_runCount (v : Word) : (s.setR0 v).runCount = s.runCount := rfl
@[simp] theorem State.setR0_maxRuns (v : Word) : (s.setR0 v).maxRuns = s.maxRuns := rfl
@[simp] theorem State.setR0_maxRunsEn (v : Word) : (s.setR0 v).maxRunsEn = s.maxRunsEn := rfl
@[simp] theorem State.setR0_latch (v : Word) : (s.setR0 v).latch = s.latch := rfl
@[simp] theorem State.setR0_latchT (v : Word) : (s.setR0 v).latchT = s.latchT := rfl
@[simp] theorem State.setR0_latchP (v : Word) : (s.setR0 v).latchP = s.latchP := rfl
@[simp] theorem State.setR0_injEn (v : Word) : (s.setR0 v).injEn = s.injEn := rfl
@[simp] theorem State.setR0_spiEn (v : Word) : (s.setR0 v).spiEn = s.spiEn := rfl
@[simp] theorem State.setR0_out (v : Word) : (s.setR0 v).out = s.out := rfl
@[simp] theorem State.setR0_rxq (v : Word) : (s.setR0 v).rxq = s.rxq := rfl
@[simp] theorem State.setR0_params (v : Word) : (s.setR0 v).params = s.params := rfl
@[simp] theorem State.setR0_inputs (v : Word) : (s.setR0 v).inputs = s.inputs := rfl
@[simp] theorem State.setR0_txAnswers (v : Word) : (s.setR0 v).txAnswers = s.txAnswers := rfl
@[simp] theorem State.setR0_rxAnswers (v : Word) : (s.setR0 v).rxAnswers = s.rxAnswers := rfl
@[simp] theorem State.setR0_freeAnswers (v : Word) : (s.setR0 v).freeAnswers = s.freeAnswers := rfl

@[simp] theorem State.recordError_r : (s.recordError).r = s.r := rfl
@[simp] theorem State.recordError_status : (s.recordError).status = s.status := rfl
@[simp] theorem State.recordError_errInfo : (s.recordError).errInfo = s.errInfo := rfl
@[simp] theorem State.recordError_stage : (s.recordError).stage = s.stage := rfl
@[simp] theorem State.recordError_busy : (s.recordError).busy = s.busy := rfl
@[simp] theorem State.recordError_termCause : (s.recordError).termCause = s.termCause := rfl
@[simp] theorem State.recordError_bb : (s.recordError).bb = s.bb := rfl
@[simp] theorem State.recordError_ovrDac : (s.recordError).ovrDac = s.ovrDac := rfl
@[simp] theorem State.recordError_ovrBias : (s.recordError).ovrBias = s.ovrBias := rfl
@[simp] theorem State.recordError_maskPresent : (s.recordError).maskPresent = s.maskPresent := rfl
@[simp] theorem State.recordError_mtxt : (s.recordError).mtxt = s.mtxt := rfl
@[simp] theorem State.recordError_cfg : (s.recordError).cfg = s.cfg := rfl
@[simp] theorem State.recordError_cfgValid : (s.recordError).cfgValid = s.cfgValid := rfl
@[simp] theorem State.recordError_vbCode : (s.recordError).vbCode = s.vbCode := rfl
@[simp] theorem State.recordError_vbSlot : (s.recordError).vbSlot = s.vbSlot := rfl
@[simp] theorem State.recordError_injF : (s.recordError).injF = s.injF := rfl
@[simp] theorem State.recordError_injState : (s.recordError).injState = s.injState := rfl
@[simp] theorem State.recordError_decState : (s.recordError).decState = s.decState := rfl
@[simp] theorem State.recordError_fbuf : (s.recordError).fbuf = s.fbuf := rfl
@[simp] theorem State.recordError_skipping : (s.recordError).skipping = s.skipping := rfl
@[simp] theorem State.recordError_syncLossCount : (s.recordError).syncLossCount = s.syncLossCount := rfl
@[simp] theorem State.recordError_lastDecCause : (s.recordError).lastDecCause = s.lastDecCause := rfl
@[simp] theorem State.recordError_hitq : (s.recordError).hitq = s.hitq := rfl
@[simp] theorem State.recordError_errCount : (s.recordError).errCount = satInc s.errCount := rfl
@[simp] theorem State.recordError_errMax : (s.recordError).errMax = s.errMax := rfl
@[simp] theorem State.recordError_runCount : (s.recordError).runCount = s.runCount := rfl
@[simp] theorem State.recordError_maxRuns : (s.recordError).maxRuns = s.maxRuns := rfl
@[simp] theorem State.recordError_maxRunsEn : (s.recordError).maxRunsEn = s.maxRunsEn := rfl
@[simp] theorem State.recordError_latch : (s.recordError).latch = s.latch := rfl
@[simp] theorem State.recordError_latchT : (s.recordError).latchT = s.latchT := rfl
@[simp] theorem State.recordError_latchP : (s.recordError).latchP = s.latchP := rfl
@[simp] theorem State.recordError_injEn : (s.recordError).injEn = s.injEn := rfl
@[simp] theorem State.recordError_spiEn : (s.recordError).spiEn = s.spiEn := rfl
@[simp] theorem State.recordError_out : (s.recordError).out = s.out := rfl
@[simp] theorem State.recordError_rxq : (s.recordError).rxq = s.rxq := rfl
@[simp] theorem State.recordError_params : (s.recordError).params = s.params := rfl
@[simp] theorem State.recordError_inputs : (s.recordError).inputs = s.inputs := rfl
@[simp] theorem State.recordError_txAnswers : (s.recordError).txAnswers = s.txAnswers := rfl
@[simp] theorem State.recordError_rxAnswers : (s.recordError).rxAnswers = s.rxAnswers := rfl
@[simp] theorem State.recordError_freeAnswers : (s.recordError).freeAnswers = s.freeAnswers := rfl

@[simp] theorem State.terminate_r (c : TermCause) : (s.terminate c).r = s.r := rfl
@[simp] theorem State.terminate_status (c : TermCause) : (s.terminate c).status = s.status := rfl
@[simp] theorem State.terminate_errInfo (c : TermCause) : (s.terminate c).errInfo = s.errInfo := rfl
@[simp] theorem State.terminate_stage (c : TermCause) : (s.terminate c).stage = .closed := rfl
@[simp] theorem State.terminate_busy (c : TermCause) : (s.terminate c).busy = s.busy := rfl
@[simp] theorem State.terminate_termCause (c : TermCause) : (s.terminate c).termCause = c := rfl
@[simp] theorem State.terminate_bb (c : TermCause) : (s.terminate c).bb = s.bb := rfl
@[simp] theorem State.terminate_ovrDac (c : TermCause) : (s.terminate c).ovrDac = s.ovrDac := rfl
@[simp] theorem State.terminate_ovrBias (c : TermCause) : (s.terminate c).ovrBias = s.ovrBias := rfl
@[simp] theorem State.terminate_maskPresent (c : TermCause) : (s.terminate c).maskPresent = s.maskPresent := rfl
@[simp] theorem State.terminate_mtxt (c : TermCause) : (s.terminate c).mtxt = s.mtxt := rfl
@[simp] theorem State.terminate_cfg (c : TermCause) : (s.terminate c).cfg = s.cfg := rfl
@[simp] theorem State.terminate_cfgValid (c : TermCause) : (s.terminate c).cfgValid = s.cfgValid := rfl
@[simp] theorem State.terminate_vbCode (c : TermCause) : (s.terminate c).vbCode = s.vbCode := rfl
@[simp] theorem State.terminate_vbSlot (c : TermCause) : (s.terminate c).vbSlot = s.vbSlot := rfl
@[simp] theorem State.terminate_injF (c : TermCause) : (s.terminate c).injF = s.injF := rfl
@[simp] theorem State.terminate_injState (c : TermCause) : (s.terminate c).injState = s.injState := rfl
@[simp] theorem State.terminate_decState (c : TermCause) : (s.terminate c).decState = s.decState := rfl
@[simp] theorem State.terminate_fbuf (c : TermCause) : (s.terminate c).fbuf = s.fbuf := rfl
@[simp] theorem State.terminate_skipping (c : TermCause) : (s.terminate c).skipping = s.skipping := rfl
@[simp] theorem State.terminate_syncLossCount (c : TermCause) : (s.terminate c).syncLossCount = s.syncLossCount := rfl
@[simp] theorem State.terminate_lastDecCause (c : TermCause) : (s.terminate c).lastDecCause = s.lastDecCause := rfl
@[simp] theorem State.terminate_hitq (c : TermCause) : (s.terminate c).hitq = s.hitq := rfl
@[simp] theorem State.terminate_errCount (c : TermCause) : (s.terminate c).errCount = s.errCount := rfl
@[simp] theorem State.terminate_errMax (c : TermCause) : (s.terminate c).errMax = s.errMax := rfl
@[simp] theorem State.terminate_runCount (c : TermCause) : (s.terminate c).runCount = s.runCount := rfl
@[simp] theorem State.terminate_maxRuns (c : TermCause) : (s.terminate c).maxRuns = s.maxRuns := rfl
@[simp] theorem State.terminate_maxRunsEn (c : TermCause) : (s.terminate c).maxRunsEn = s.maxRunsEn := rfl
@[simp] theorem State.terminate_latch (c : TermCause) : (s.terminate c).latch = s.latch := rfl
@[simp] theorem State.terminate_latchT (c : TermCause) : (s.terminate c).latchT = s.latchT := rfl
@[simp] theorem State.terminate_latchP (c : TermCause) : (s.terminate c).latchP = s.latchP := rfl
@[simp] theorem State.terminate_injEn (c : TermCause) : (s.terminate c).injEn = s.injEn := rfl
@[simp] theorem State.terminate_spiEn (c : TermCause) : (s.terminate c).spiEn = s.spiEn := rfl
@[simp] theorem State.terminate_out (c : TermCause) : (s.terminate c).out = s.out := rfl
@[simp] theorem State.terminate_rxq (c : TermCause) : (s.terminate c).rxq = s.rxq := rfl
@[simp] theorem State.terminate_params (c : TermCause) : (s.terminate c).params = s.params := rfl
@[simp] theorem State.terminate_inputs (c : TermCause) : (s.terminate c).inputs = s.inputs := rfl
@[simp] theorem State.terminate_txAnswers (c : TermCause) : (s.terminate c).txAnswers = s.txAnswers := rfl
@[simp] theorem State.terminate_rxAnswers (c : TermCause) : (s.terminate c).rxAnswers = s.rxAnswers := rfl
@[simp] theorem State.terminate_freeAnswers (c : TermCause) : (s.terminate c).freeAnswers = s.freeAnswers := rfl

@[simp] theorem State.rxArrive_r (b : Byte) : (s.rxArrive b).r = s.r := rfl
@[simp] theorem State.rxArrive_status (b : Byte) : (s.rxArrive b).status = s.status := rfl
@[simp] theorem State.rxArrive_errInfo (b : Byte) : (s.rxArrive b).errInfo = s.errInfo := rfl
@[simp] theorem State.rxArrive_stage (b : Byte) : (s.rxArrive b).stage = s.stage := rfl
@[simp] theorem State.rxArrive_busy (b : Byte) : (s.rxArrive b).busy = s.busy := rfl
@[simp] theorem State.rxArrive_termCause (b : Byte) : (s.rxArrive b).termCause = s.termCause := rfl
@[simp] theorem State.rxArrive_bb (b : Byte) : (s.rxArrive b).bb = s.bb := rfl
@[simp] theorem State.rxArrive_ovrDac (b : Byte) : (s.rxArrive b).ovrDac = s.ovrDac := rfl
@[simp] theorem State.rxArrive_ovrBias (b : Byte) : (s.rxArrive b).ovrBias = s.ovrBias := rfl
@[simp] theorem State.rxArrive_maskPresent (b : Byte) : (s.rxArrive b).maskPresent = s.maskPresent := rfl
@[simp] theorem State.rxArrive_mtxt (b : Byte) : (s.rxArrive b).mtxt = s.mtxt := rfl
@[simp] theorem State.rxArrive_cfg (b : Byte) : (s.rxArrive b).cfg = s.cfg := rfl
@[simp] theorem State.rxArrive_cfgValid (b : Byte) : (s.rxArrive b).cfgValid = s.cfgValid := rfl
@[simp] theorem State.rxArrive_vbCode (b : Byte) : (s.rxArrive b).vbCode = s.vbCode := rfl
@[simp] theorem State.rxArrive_vbSlot (b : Byte) : (s.rxArrive b).vbSlot = s.vbSlot := rfl
@[simp] theorem State.rxArrive_injF (b : Byte) : (s.rxArrive b).injF = s.injF := rfl
@[simp] theorem State.rxArrive_injState (b : Byte) : (s.rxArrive b).injState = s.injState := rfl
@[simp] theorem State.rxArrive_decState (b : Byte) : (s.rxArrive b).decState = s.decState := rfl
@[simp] theorem State.rxArrive_fbuf (b : Byte) : (s.rxArrive b).fbuf = s.fbuf := rfl
@[simp] theorem State.rxArrive_skipping (b : Byte) : (s.rxArrive b).skipping = s.skipping := rfl
@[simp] theorem State.rxArrive_syncLossCount (b : Byte) : (s.rxArrive b).syncLossCount = s.syncLossCount := rfl
@[simp] theorem State.rxArrive_lastDecCause (b : Byte) : (s.rxArrive b).lastDecCause = s.lastDecCause := rfl
@[simp] theorem State.rxArrive_hitq (b : Byte) : (s.rxArrive b).hitq = s.hitq := rfl
@[simp] theorem State.rxArrive_errCount (b : Byte) : (s.rxArrive b).errCount = s.errCount := rfl
@[simp] theorem State.rxArrive_errMax (b : Byte) : (s.rxArrive b).errMax = s.errMax := rfl
@[simp] theorem State.rxArrive_runCount (b : Byte) : (s.rxArrive b).runCount = s.runCount := rfl
@[simp] theorem State.rxArrive_maxRuns (b : Byte) : (s.rxArrive b).maxRuns = s.maxRuns := rfl
@[simp] theorem State.rxArrive_maxRunsEn (b : Byte) : (s.rxArrive b).maxRunsEn = s.maxRunsEn := rfl
@[simp] theorem State.rxArrive_latch (b : Byte) : (s.rxArrive b).latch = s.latch := rfl
@[simp] theorem State.rxArrive_latchT (b : Byte) : (s.rxArrive b).latchT = s.latchT := rfl
@[simp] theorem State.rxArrive_latchP (b : Byte) : (s.rxArrive b).latchP = s.latchP := rfl
@[simp] theorem State.rxArrive_injEn (b : Byte) : (s.rxArrive b).injEn = s.injEn := rfl
@[simp] theorem State.rxArrive_spiEn (b : Byte) : (s.rxArrive b).spiEn = s.spiEn := rfl
@[simp] theorem State.rxArrive_out (b : Byte) : (s.rxArrive b).out = s.out := rfl
@[simp] theorem State.rxArrive_rxq (b : Byte) : (s.rxArrive b).rxq = s.rxq ++ [b] := rfl
@[simp] theorem State.rxArrive_params (b : Byte) : (s.rxArrive b).params = s.params := rfl
@[simp] theorem State.rxArrive_inputs (b : Byte) : (s.rxArrive b).inputs = s.inputs := rfl
@[simp] theorem State.rxArrive_txAnswers (b : Byte) : (s.rxArrive b).txAnswers = s.txAnswers := rfl
@[simp] theorem State.rxArrive_rxAnswers (b : Byte) : (s.rxArrive b).rxAnswers = s.rxAnswers := rfl
@[simp] theorem State.rxArrive_freeAnswers (b : Byte) : (s.rxArrive b).freeAnswers = s.freeAnswers := rfl

@[simp] theorem State.pulseLatch_r (t : LatchTarget) (p : Byte) : (s.pulseLatch t p).r = s.r := rfl
@[simp] theorem State.pulseLatch_status (t : LatchTarget) (p : Byte) : (s.pulseLatch t p).status = s.status := rfl
@[simp] theorem State.pulseLatch_errInfo (t : LatchTarget) (p : Byte) : (s.pulseLatch t p).errInfo = s.errInfo := rfl
@[simp] theorem State.pulseLatch_stage (t : LatchTarget) (p : Byte) : (s.pulseLatch t p).stage = s.stage := rfl
@[simp] theorem State.pulseLatch_busy (t : LatchTarget) (p : Byte) : (s.pulseLatch t p).busy = s.busy := rfl
@[simp] theorem State.pulseLatch_termCause (t : LatchTarget) (p : Byte) : (s.pulseLatch t p).termCause = s.termCause := rfl
@[simp] theorem State.pulseLatch_bb (t : LatchTarget) (p : Byte) : (s.pulseLatch t p).bb = s.bb := rfl
@[simp] theorem State.pulseLatch_ovrDac (t : LatchTarget) (p : Byte) : (s.pulseLatch t p).ovrDac = s.ovrDac := rfl
@[simp] theorem State.pulseLatch_ovrBias (t : LatchTarget) (p : Byte) : (s.pulseLatch t p).ovrBias = s.ovrBias := rfl
@[simp] theorem State.pulseLatch_maskPresent (t : LatchTarget) (p : Byte) : (s.pulseLatch t p).maskPresent = s.maskPresent := rfl
@[simp] theorem State.pulseLatch_mtxt (t : LatchTarget) (p : Byte) : (s.pulseLatch t p).mtxt = s.mtxt := rfl
@[simp] theorem State.pulseLatch_cfg (t : LatchTarget) (p : Byte) : (s.pulseLatch t p).cfg = s.cfg := rfl
@[simp] theorem State.pulseLatch_cfgValid (t : LatchTarget) (p : Byte) : (s.pulseLatch t p).cfgValid = s.cfgValid := rfl
@[simp] theorem State.pulseLatch_vbCode (t : LatchTarget) (p : Byte) : (s.pulseLatch t p).vbCode = s.vbCode := rfl
@[simp] theorem State.pulseLatch_vbSlot (t : LatchTarget) (p : Byte) : (s.pulseLatch t p).vbSlot = s.vbSlot := rfl
@[simp] theorem State.pulseLatch_injF (t : LatchTarget) (p : Byte) : (s.pulseLatch t p).injF = s.injF := rfl
@[simp] theorem State.pulseLatch_injState (t : LatchTarget) (p : Byte) : (s.pulseLatch t p).injState = s.injState := rfl
@[simp] theorem State.pulseLatch_decState (t : LatchTarget) (p : Byte) : (s.pulseLatch t p).decState = s.decState := rfl
@[simp] theorem State.pulseLatch_fbuf (t : LatchTarget) (p : Byte) : (s.pulseLatch t p).fbuf = s.fbuf := rfl
@[simp] theorem State.pulseLatch_skipping (t : LatchTarget) (p : Byte) : (s.pulseLatch t p).skipping = s.skipping := rfl
@[simp] theorem State.pulseLatch_syncLossCount (t : LatchTarget) (p : Byte) : (s.pulseLatch t p).syncLossCount = s.syncLossCount := rfl
@[simp] theorem State.pulseLatch_lastDecCause (t : LatchTarget) (p : Byte) : (s.pulseLatch t p).lastDecCause = s.lastDecCause := rfl
@[simp] theorem State.pulseLatch_hitq (t : LatchTarget) (p : Byte) : (s.pulseLatch t p).hitq = s.hitq := rfl
@[simp] theorem State.pulseLatch_errCount (t : LatchTarget) (p : Byte) : (s.pulseLatch t p).errCount = s.errCount := rfl
@[simp] theorem State.pulseLatch_errMax (t : LatchTarget) (p : Byte) : (s.pulseLatch t p).errMax = s.errMax := rfl
@[simp] theorem State.pulseLatch_runCount (t : LatchTarget) (p : Byte) : (s.pulseLatch t p).runCount = s.runCount := rfl
@[simp] theorem State.pulseLatch_maxRuns (t : LatchTarget) (p : Byte) : (s.pulseLatch t p).maxRuns = s.maxRuns := rfl
@[simp] theorem State.pulseLatch_maxRunsEn (t : LatchTarget) (p : Byte) : (s.pulseLatch t p).maxRunsEn = s.maxRunsEn := rfl
@[simp] theorem State.pulseLatch_latch (t : LatchTarget) (p : Byte) : (s.pulseLatch t p).latch = false := rfl
@[simp] theorem State.pulseLatch_latchT (t : LatchTarget) (p : Byte) : (s.pulseLatch t p).latchT = t := rfl
@[simp] theorem State.pulseLatch_latchP (t : LatchTarget) (p : Byte) : (s.pulseLatch t p).latchP = p := rfl
@[simp] theorem State.pulseLatch_injEn (t : LatchTarget) (p : Byte) : (s.pulseLatch t p).injEn = s.injEn := rfl
@[simp] theorem State.pulseLatch_spiEn (t : LatchTarget) (p : Byte) : (s.pulseLatch t p).spiEn = s.spiEn := rfl
@[simp] theorem State.pulseLatch_out (t : LatchTarget) (p : Byte) : (s.pulseLatch t p).out = s.out ++ [.latch t p true] ++ [.latch t p false] := rfl
@[simp] theorem State.pulseLatch_rxq (t : LatchTarget) (p : Byte) : (s.pulseLatch t p).rxq = s.rxq := rfl
@[simp] theorem State.pulseLatch_params (t : LatchTarget) (p : Byte) : (s.pulseLatch t p).params = s.params := rfl
@[simp] theorem State.pulseLatch_inputs (t : LatchTarget) (p : Byte) : (s.pulseLatch t p).inputs = s.inputs := rfl
@[simp] theorem State.pulseLatch_txAnswers (t : LatchTarget) (p : Byte) : (s.pulseLatch t p).txAnswers = s.txAnswers := rfl
@[simp] theorem State.pulseLatch_rxAnswers (t : LatchTarget) (p : Byte) : (s.pulseLatch t p).rxAnswers = s.rxAnswers := rfl
@[simp] theorem State.pulseLatch_freeAnswers (t : LatchTarget) (p : Byte) : (s.pulseLatch t p).freeAnswers = s.freeAnswers := rfl

@[simp] theorem State.startInjecting_r : (s.startInjecting).r = s.r := rfl
@[simp] theorem State.startInjecting_status : (s.startInjecting).status = s.status := rfl
@[simp] theorem State.startInjecting_errInfo : (s.startInjecting).errInfo = s.errInfo := rfl
@[simp] theorem State.startInjecting_stage : (s.startInjecting).stage = s.stage := rfl
@[simp] theorem State.startInjecting_busy : (s.startInjecting).busy = s.busy := rfl
@[simp] theorem State.startInjecting_termCause : (s.startInjecting).termCause = s.termCause := rfl
@[simp] theorem State.startInjecting_bb : (s.startInjecting).bb = s.bb := rfl
@[simp] theorem State.startInjecting_ovrDac : (s.startInjecting).ovrDac = s.ovrDac := rfl
@[simp] theorem State.startInjecting_ovrBias : (s.startInjecting).ovrBias = s.ovrBias := rfl
@[simp] theorem State.startInjecting_maskPresent : (s.startInjecting).maskPresent = s.maskPresent := rfl
@[simp] theorem State.startInjecting_mtxt : (s.startInjecting).mtxt = s.mtxt := rfl
@[simp] theorem State.startInjecting_cfg : (s.startInjecting).cfg = s.cfg := rfl
@[simp] theorem State.startInjecting_cfgValid : (s.startInjecting).cfgValid = s.cfgValid := rfl
@[simp] theorem State.startInjecting_vbCode : (s.startInjecting).vbCode = s.vbCode := rfl
@[simp] theorem State.startInjecting_vbSlot : (s.startInjecting).vbSlot = s.vbSlot := rfl
@[simp] theorem State.startInjecting_injF : (s.startInjecting).injF = s.injF := rfl
@[simp] theorem State.startInjecting_injState : (s.startInjecting).injState = .injecting := rfl
@[simp] theorem State.startInjecting_decState : (s.startInjecting).decState = s.decState := rfl
@[simp] theorem State.startInjecting_fbuf : (s.startInjecting).fbuf = s.fbuf := rfl
@[simp] theorem State.startInjecting_skipping : (s.startInjecting).skipping = s.skipping := rfl
@[simp] theorem State.startInjecting_syncLossCount : (s.startInjecting).syncLossCount = s.syncLossCount := rfl
@[simp] theorem State.startInjecting_lastDecCause : (s.startInjecting).lastDecCause = s.lastDecCause := rfl
@[simp] theorem State.startInjecting_hitq : (s.startInjecting).hitq = s.hitq := rfl
@[simp] theorem State.startInjecting_errCount : (s.startInjecting).errCount = s.errCount := rfl
@[simp] theorem State.startInjecting_errMax : (s.startInjecting).errMax = s.errMax := rfl
@[simp] theorem State.startInjecting_runCount : (s.startInjecting).runCount = s.runCount := rfl
@[simp] theorem State.startInjecting_maxRuns : (s.startInjecting).maxRuns = s.maxRuns := rfl
@[simp] theorem State.startInjecting_maxRunsEn : (s.startInjecting).maxRunsEn = s.maxRunsEn := rfl
@[simp] theorem State.startInjecting_latch : (s.startInjecting).latch = s.latch := rfl
@[simp] theorem State.startInjecting_latchT : (s.startInjecting).latchT = s.latchT := rfl
@[simp] theorem State.startInjecting_latchP : (s.startInjecting).latchP = s.latchP := rfl
@[simp] theorem State.startInjecting_injEn : (s.startInjecting).injEn = true := rfl
@[simp] theorem State.startInjecting_spiEn : (s.startInjecting).spiEn = s.spiEn := rfl
@[simp] theorem State.startInjecting_out : (s.startInjecting).out = s.out ++ [.injEn true] := rfl
@[simp] theorem State.startInjecting_rxq : (s.startInjecting).rxq = s.rxq := rfl
@[simp] theorem State.startInjecting_params : (s.startInjecting).params = s.params := rfl
@[simp] theorem State.startInjecting_inputs : (s.startInjecting).inputs = s.inputs := rfl
@[simp] theorem State.startInjecting_txAnswers : (s.startInjecting).txAnswers = s.txAnswers := rfl
@[simp] theorem State.startInjecting_rxAnswers : (s.startInjecting).rxAnswers = s.rxAnswers := rfl
@[simp] theorem State.startInjecting_freeAnswers : (s.startInjecting).freeAnswers = s.freeAnswers := rfl

/-- The update as a whole, for the frames that are written as record updates. -/
theorem State.pulseLatch_eq (t : LatchTarget) (p : Byte) :
    s.pulseLatch t p =
      { s with latch := false, latchT := t, latchP := p, out := s.out ++ [.latch t p true] ++ [.latch t p false] } :=
  rfl

theorem State.startInjecting_eq :
    s.startInjecting = { s with injState := .injecting, injEn := true, out := s.out ++ [.injEn true] } := rfl

end Sys2Proof.Machine
end

