-- ==== Sys2Proof/Laws/Ops.lean ====
section
/-! SUPPORT. What each shared operation can do, said once: the gate, the environment's answers, the transport calls, the
shift-register write, the end of a session. -/

namespace Sys2Proof.Machine

theorem gated_of_legal {i : Instr} {s : State} {body : Result} (h : stageLegal i s.stage = true) :
    gated i s body = body := by simp [gated, h]

theorem gated_of_illegal {i : Instr} {s : State} {body : Result} (h : stageLegal i s.stage = false) :
    gated i s body = .next { s with status := .stageError, errInfo := stageInfo s.stage } := by
  simp [gated, h, faulted, State.raise]

/-- A gated command that answers `next t` either raised StageError or ran its body at a legal stage. -/
theorem gated_next {i : Instr} {s t : State} {body : Result} (h : gated i s body = .next t) :
    (stageLegal i s.stage = false ∧ t = { s with status := .stageError, errInfo := stageInfo s.stage }) ∨
    (stageLegal i s.stage = true ∧ body = .next t) := by
  cases hl : stageLegal i s.stage with
  | false => rw [gated_of_illegal hl] at h; exact .inl ⟨rfl, by injection h with h; exact h.symm⟩
  | true => rw [gated_of_legal hl] at h; exact .inr ⟨rfl, h⟩

@[simp] theorem faulted_eq_next {s t : State} {c : Cause} {info : Word} :
    faulted s c info = .next t ↔ { s with status := c, errInfo := info } = t := by
  simp [faulted, State.raise]

@[simp] theorem succeeded_eq_next {s t : State} :
    succeeded s = .next t ↔ { s with status := .ok, errInfo := 0 } = t := by
  simp [succeeded, State.succeed]

/-- Drawing an answer to a write consumes a placed answer or counts a free one, and nothing else. -/
theorem answerTx_frame (s : State) :
    s.answerTx.2 = { s with txAnswers := s.answerTx.2.txAnswers, freeAnswers := s.answerTx.2.freeAnswers } := by
  unfold State.answerTx; split <;> rfl

/-- The same for reads. -/
theorem answerRx_frame (s : State) :
    s.answerRx.2 = { s with rxAnswers := s.answerRx.2.rxAnswers, freeAnswers := s.answerRx.2.freeAnswers } := by
  unfold State.answerRx; split <;> rfl

/-- The answer to a read depends on the answers placed and on the count of free ones alone. -/
theorem answerRx_congr {s t : State} (hr : t.rxAnswers = s.rxAnswers) (hf : t.freeAnswers = s.freeAnswers) :
    t.answerRx.1 = s.answerRx.1 ∧ t.answerRx.2.rxAnswers = s.answerRx.2.rxAnswers ∧
      t.answerRx.2.freeAnswers = s.answerRx.2.freeAnswers := by
  cases h : s.rxAnswers <;> simp [State.answerRx, hr, hf, h]

/-- The answer to a write depends on the answers placed and on the count of free ones alone. -/
theorem answerTx_congr {s t : State} (hr : t.txAnswers = s.txAnswers) (hf : t.freeAnswers = s.freeAnswers) :
    t.answerTx.1 = s.answerTx.1 ∧ t.answerTx.2.txAnswers = s.answerTx.2.txAnswers ∧
      t.answerTx.2.freeAnswers = s.answerTx.2.freeAnswers := by
  cases h : s.txAnswers <;> simp [State.answerTx, hr, hf, h]

/-- `tx_write` that is answered `ok`: all bytes go out (R141). -/
theorem txWrite_of_ok {s : State} (bs : List Byte) (h : s.answerTx.1 = .ok) :
    s.txWrite bs = .ok { s with
      out := s.out ++ bs.map Event.txByte
      txAnswers := s.answerTx.2.txAnswers
      freeAnswers := s.answerTx.2.freeAnswers } := by
  have hf := answerTx_frame s
  rcases ha : s.answerTx with ⟨a, u⟩
  simp only [ha] at h hf ⊢
  subst h
  simp only [State.txWrite, ha, State.emits, txEvents]
  rw [hf]

/-- `tx_write` that fails: a prefix goes out, TransportError(0) (R141). -/
theorem txWrite_of_fail {s : State} (bs : List Byte) {k : Nat} (h : s.answerTx.1 = .fail k) :
    s.txWrite bs = .error { s with
      out := s.out ++ (bs.take k).map Event.txByte
      status := .transportError
      errInfo := 0
      txAnswers := s.answerTx.2.txAnswers
      freeAnswers := s.answerTx.2.freeAnswers } := by
  have hf := answerTx_frame s
  rcases ha : s.answerTx with ⟨a, u⟩
  simp only [ha] at h hf ⊢
  subst h
  simp only [State.txWrite, ha, State.emits, txEvents, State.raise]
  rw [hf]

/-- `rx_read` that is answered `ok` (R142). -/
theorem rxRead_of_ok {s : State} (m : Nat) (h : s.answerRx.1 = .ok) :
    s.rxRead m = .ok (s.rxq.take m, { s with
      rxq := s.rxq.drop m
      rxAnswers := s.answerRx.2.rxAnswers
      freeAnswers := s.answerRx.2.freeAnswers }) := by
  have hf := answerRx_frame s
  rcases ha : s.answerRx with ⟨a, u⟩
  simp only [ha] at h hf ⊢
  subst h
  simp only [State.rxRead, ha]
  rw [hf]

/-- `rx_read` that fails: bytes are lost, TransportError(1) (R142). -/
theorem rxRead_of_fail {s : State} (m : Nat) {j : Nat} (h : s.answerRx.1 = .fail j) :
    s.rxRead m = .error { s with
      rxq := s.rxq.drop (min j m)
      status := .transportError
      errInfo := 1
      rxAnswers := s.answerRx.2.rxAnswers
      freeAnswers := s.answerRx.2.freeAnswers } := by
  have hf := answerRx_frame s
  rcases ha : s.answerRx with ⟨a, u⟩
  simp only [ha] at h hf ⊢
  subst h
  simp only [State.rxRead, ha, State.raise]
  rw [hf]

/-- `sr_write` that is answered `ok`: the bytes, then the latch pulse (R143). -/
theorem srWrite_of_ok {s : State} (bits : Bits) (t : LatchTarget) (p : Byte) (h : s.answerTx.1 = .ok) :
    s.srWrite bits t p = .ok { s with
      out := s.out ++ (tobytes bits).map Event.txByte ++ [.latch t p true, .latch t p false]
      latch := false
      latchT := t
      latchP := p
      txAnswers := s.answerTx.2.txAnswers
      freeAnswers := s.answerTx.2.freeAnswers } := by
  simp [State.srWrite, txWrite_of_ok _ h, State.pulseLatch_eq]

/-- `sr_write` that fails: a prefix of the bytes, no latch pulse (R143). -/
theorem srWrite_of_fail {s : State} (bits : Bits) (t : LatchTarget) (p : Byte) {k : Nat}
    (h : s.answerTx.1 = .fail k) :
    s.srWrite bits t p = .error { s with
      out := s.out ++ ((tobytes bits).take k).map Event.txByte
      status := .transportError
      errInfo := 0
      txAnswers := s.answerTx.2.txAnswers
      freeAnswers := s.answerTx.2.freeAnswers } := by
  simp [State.srWrite, txWrite_of_fail _ h]

/-- The read half of REG.READ answered `ok` (R153). -/
theorem finishRead_of_ok {s : State} (h : s.answerRx.1 = .ok) :
    finishRead s = .next { s with
      busy := false
      r := { s.r with r0 := responseValue (s.rxq.take s.params.respLen) }
      rxq := s.rxq.drop s.params.respLen
      status := .ok
      errInfo := 0
      rxAnswers := s.answerRx.2.rxAnswers
      freeAnswers := s.answerRx.2.freeAnswers } := by
  simp only [finishRead, rxRead_of_ok _ h]; rfl

/-- The read half of REG.READ that fails (R153). -/
theorem finishRead_of_fail {s : State} {j : Nat} (h : s.answerRx.1 = .fail j) :
    finishRead s = .next { s with
      busy := false
      rxq := s.rxq.drop (min j s.params.respLen)
      status := .transportError
      errInfo := 1
      rxAnswers := s.answerRx.2.rxAnswers
      freeAnswers := s.answerRx.2.freeAnswers } := by
  simp only [finishRead, rxRead_of_fail _ h]

/-- Everything `sr_write` can do (R143, R226). -/
theorem srWrite_cases (s : State) (bits : Bits) (t : LatchTarget) (p : Byte) :
    (∃ k ta fa, s.srWrite bits t p = .error { s with
      out := s.out ++ ((tobytes bits).take k).map Event.txByte
      status := .transportError
      errInfo := 0
      txAnswers := ta
      freeAnswers := fa }) ∨
    (∃ ta fa, s.srWrite bits t p = .ok { s with
      out := s.out ++ (tobytes bits).map Event.txByte ++ [.latch t p true, .latch t p false]
      latch := false
      latchT := t
      latchP := p
      txAnswers := ta
      freeAnswers := fa }) := by
  cases h : s.answerTx.1 with
  | ok => exact .inr ⟨_, _, srWrite_of_ok bits t p h⟩
  | fail k => exact .inl ⟨k, _, _, srWrite_of_fail bits t p h⟩

/-- Everything `tx_write` can do (R141). -/
theorem txWrite_cases (s : State) (bs : List Byte) :
    (∃ k ta fa, s.txWrite bs = .error { s with
      out := s.out ++ (bs.take k).map Event.txByte
      status := .transportError
      errInfo := 0
      txAnswers := ta
      freeAnswers := fa }) ∨
    (∃ ta fa, s.txWrite bs = .ok { s with
      out := s.out ++ bs.map Event.txByte, txAnswers := ta, freeAnswers := fa }) := by
  cases h : s.answerTx.1 with
  | ok => exact .inr ⟨_, _, txWrite_of_ok bs h⟩
  | fail k => exact .inl ⟨k, _, _, txWrite_of_fail bs h⟩

/-- Everything `rx_read` can do (R142). -/
theorem rxRead_cases (s : State) (m : Nat) :
    (∃ j ra fa, s.rxRead m = .error { s with
      rxq := s.rxq.drop (min j m), status := .transportError, errInfo := 1, rxAnswers := ra, freeAnswers := fa }) ∨
    (∃ ra fa, s.rxRead m = .ok (s.rxq.take m, { s with
      rxq := s.rxq.drop m, rxAnswers := ra, freeAnswers := fa })) := by
  cases h : s.answerRx.1 with
  | ok => exact .inr ⟨_, _, rxRead_of_ok m h⟩
  | fail j => exact .inl ⟨j, _, _, rxRead_of_fail m h⟩

/-- Everything the read half of REG.READ can do (R153). -/
theorem finishRead_cases (s : State) :
    (∃ j ra fa, finishRead s = .next { s with
      busy := false
      rxq := s.rxq.drop (min j s.params.respLen)
      status := .transportError
      errInfo := 1
      rxAnswers := ra
      freeAnswers := fa }) ∨
    (∃ ra fa, finishRead s = .next { s with
      busy := false
      r := { s.r with r0 := responseValue (s.rxq.take s.params.respLen) }
      rxq := s.rxq.drop s.params.respLen
      status := .ok
      errInfo := 0
      rxAnswers := ra
      freeAnswers := fa }) := by
  cases h : s.answerRx.1 with
  | ok => exact .inr ⟨_, _, finishRead_of_ok h⟩
  | fail j => exact .inl ⟨j, _, _, finishRead_of_fail h⟩

/-- The budget test at the end of ERR.RECORD (R213, R215). -/
theorem closeIfExceeded_eq (s : State) :
    s.closeIfExceeded = { s with
      stage := if s.errMax.toNat < s.errCount.toNat then .closed else s.stage
      termCause := if s.errMax.toNat < s.errCount.toNat then .budgetExceeded else s.termCause } := by
  by_cases h : s.errMax.toNat < s.errCount.toNat <;> simp [State.closeIfExceeded, State.exceeded, h, State.terminate]

/-- A saturating counter counts up to its largest value (R216). -/
theorem satInc_toNat {n : Nat} (v : BitVec n) : (satInc v).toNat = min (v.toNat + 1) (2 ^ n - 1) := by
  have := v.isLt
  unfold satInc
  split
  · rw [BitVec.toNat_ofNat, Nat.mod_eq_of_lt (by assumption)]; omega
  · omega

/-- A saturating counter never goes down (R216). -/
theorem le_satInc {n : Nat} (v : BitVec n) : v.toNat ≤ (satInc v).toNat := by
  rw [satInc_toNat]; have := v.isLt; omega

end Sys2Proof.Machine
end

