-- ==== Sys2Proof/Laws/Decoder.lean ====
section
/-! SUPPORT. What the per-byte decoder can do (spec/43_readout_decoder.md R168 to R172), said once. -/

namespace Sys2Proof.Machine

/-- The fields the decoder writes, and nothing else (R168). -/
def sameButDecoder (s t : State) : Prop :=
  t = { s with
    decState := t.decState
    fbuf := t.fbuf
    skipping := t.skipping
    syncLossCount := t.syncLossCount
    lastDecCause := t.lastDecCause
    hitq := t.hitq
    errCount := t.errCount }

theorem sameButDecoder_refl (s : State) : sameButDecoder s s := rfl

theorem sameButDecoder_trans {s t u : State} (h : sameButDecoder s t) (h' : sameButDecoder t u) :
    sameButDecoder s u := by
  unfold sameButDecoder at *; rw [h'] ; rw [h]

theorem emitFrame_frame (s : State) : sameButDecoder s (emitFrame s).1 := by
  unfold emitFrame; split <;> rfl

theorem readFrame_frame (x : Byte) (s : State) : sameButDecoder s (readFrame x s).1 := by
  unfold readFrame
  split
  · exact sameButDecoder_trans (t := { s with fbuf := s.fbuf ++ [x], decState := .emitting }) rfl (emitFrame_frame _)
  · rfl

theorem awaitSync_frame (x : Byte) (s : State) : sameButDecoder s (awaitSync x s).1 := by
  unfold awaitSync
  split
  · split <;> rfl
  · exact sameButDecoder_trans (t := { s with decState := .readingFrame }) rfl (readFrame_frame x _)

theorem decByte_frame (x : Byte) (s : State) : sameButDecoder s (decByte x s).1 := by
  unfold decByte
  split
  · exact awaitSync_frame x s
  · exact readFrame_frame x s

theorem decBytes_frame (bs : List Byte) (s : State) (hits errs : Nat) :
    sameButDecoder s (decBytes bs s hits errs).1 := by
  induction bs generalizing s hits errs with
  | nil => exact sameButDecoder_refl s
  | cons x xs ih =>
    have h := decByte_frame x s
    unfold decBytes
    split <;> rename_i t ht <;> rw [ht] at h <;> exact sameButDecoder_trans h (ih _ _ _)

/-- The loop over two runs of bytes is the loop over the first, then over the second. -/
theorem decBytes_append (xs ys : List Byte) (s : State) (hits errs : Nat) :
    decBytes (xs ++ ys) s hits errs =
      decBytes ys (decBytes xs s hits errs).1 (decBytes xs s hits errs).2.1 (decBytes xs s hits errs).2.2 := by
  induction xs generalizing s hits errs with
  | nil => rfl
  | cons x xs ih =>
    simp only [List.cons_append, decBytes]
    split <;> exact ih _ _ _

/-- What `emit_frame` does: a record at the back of HITQ, or one more decode error (R171). -/
theorem emitFrame_cases (s : State) :
    (frameCause s.params s.fbuf = none ∧
      emitFrame s = ({ s with
        hitq := s.hitq ++ [extractRecord s.params (s.fbuf.take s.params.frame.payloadLen)]
        fbuf := [], skipping := false, decState := .awaitingSync }, .record)) ∨
    (∃ c, frameCause s.params s.fbuf = some c ∧
      emitFrame s = ({ s with
        errCount := satInc s.errCount, lastDecCause := c
        fbuf := [], skipping := false, decState := .awaitingSync }, .decodeError)) := by
  unfold emitFrame
  cases h : frameCause s.params s.fbuf with
  | none => exact .inl ⟨rfl, rfl⟩
  | some c => exact .inr ⟨c, rfl, rfl⟩

/-- What a byte's processing that reports an event has done to HITQ and ERR_COUNT (R176). -/
def countsAgree (s : State) : State × DecEvent → Prop
  | (t, .nothing) => t.hitq = s.hitq ∧ t.errCount = s.errCount
  | (t, .record) => (∃ h, t.hitq = s.hitq ++ [h]) ∧ t.errCount = s.errCount
  | (t, .decodeError) => t.hitq = s.hitq ∧ t.errCount = satInc s.errCount

theorem emitFrame_counts (s : State) : countsAgree s (emitFrame s) := by
  rcases emitFrame_cases s with ⟨_, h⟩ | ⟨c, _, h⟩ <;> rw [h] <;> simp [countsAgree]

theorem readFrame_counts (x : Byte) (s : State) : countsAgree s (readFrame x s) := by
  unfold readFrame
  split
  · exact emitFrame_counts { s with fbuf := s.fbuf ++ [x], decState := .emitting }
  · exact ⟨rfl, rfl⟩

/-- One byte gives at most one record or one decode error (R176). -/
theorem decByte_counts (x : Byte) (s : State) : countsAgree s (decByte x s) := by
  unfold decByte
  split
  · unfold awaitSync
    split
    · split <;> exact ⟨rfl, rfl⟩
    · exact readFrame_counts x { s with decState := .readingFrame }
  · exact readFrame_counts x s

end Sys2Proof.Machine
end

