-- ==== Sys2Proof/Laws/Readout.lean ====
section
/-! SUPPORT. What RD.POLL does after its read, said once (spec/43_readout_decoder.md R176, R177). -/

namespace Sys2Proof.Machine

/-- The end of RD.POLL (R176, R177): the budget is tested first. -/
theorem closeAfterPoll_eq (s : State) :
    s.closeAfterPoll = { s with
      stage := if s.errMax.toNat < s.errCount.toNat ∨
        (s.maxRunsEn = true ∧ s.maxRuns.toNat ≤ s.runCount.toNat) then .closed else s.stage
      termCause := if s.errMax.toNat < s.errCount.toNat then .budgetExceeded
        else if s.maxRunsEn = true ∧ s.maxRuns.toNat ≤ s.runCount.toNat then .maxrunsReached
        else s.termCause } := by
  by_cases h1 : s.errMax.toNat < s.errCount.toNat
  · simp [State.closeAfterPoll, State.exceeded, h1, State.terminate]
  · by_cases h2 : s.maxRunsEn = true ∧ s.maxRuns.toNat ≤ s.runCount.toNat <;>
      simp [State.closeAfterPoll, State.exceeded, h1, h2, State.terminate]

/-- RD.POLL after its read: the decoder's fields are the loop's, the result registers are its counts (R176). -/
theorem polled_eq (s : State) (bs : List Byte) :
    s.polled bs =
      { { s with
          decState := (decBytes bs s 0 0).1.decState
          fbuf := (decBytes bs s 0 0).1.fbuf
          skipping := (decBytes bs s 0 0).1.skipping
          syncLossCount := (decBytes bs s 0 0).1.syncLossCount
          lastDecCause := (decBytes bs s 0 0).1.lastDecCause
          hitq := (decBytes bs s 0 0).1.hitq
          errCount := (decBytes bs s 0 0).1.errCount } with
        r := { s.r with
          r0 := BitVec.ofNat 32 bs.length
          r1 := BitVec.ofNat 32 (decBytes bs s 0 0).2.1
          r2 := BitVec.ofNat 32 (decBytes bs s 0 0).2.2 }
        runCount := satInc s.runCount }.closeAfterPoll := by
  have h := decBytes_frame bs s 0 0
  unfold sameButDecoder at h
  unfold State.polled
  rcases hd : decBytes bs s 0 0 with ⟨t, hits, errs⟩
  rw [hd] at h
  simp only at h ⊢
  rw [h]

/-- The error count never goes down while bytes are decoded (R216). -/
theorem decBytes_errCount_le (bs : List Byte) (s : State) (hits errs : Nat) :
    s.errCount.toNat ≤ (decBytes bs s hits errs).1.errCount.toNat := by
  induction bs generalizing s hits errs with
  | nil => exact Nat.le_refl _
  | cons x xs ih =>
    have hc := decByte_counts x s
    unfold decBytes
    split <;> rename_i u hu <;> rw [hu] at hc <;> simp only [countsAgree] at hc <;>
      refine Nat.le_trans ?_ (ih _ _ _)
    · rw [hc.2]
    · rw [hc.2]; exact le_satInc _
    · rw [hc.2]

end Sys2Proof.Machine
end

