-- ==== Sys2Proof/Laws/Exec.lean ====
section
/-! SUPPORT. What a command can do, said once: every next state of `exec`, with the conditions under which it
arises. The whole-machine statements split into these cases and unfold no meaning. -/

namespace Sys2Proof.Machine

/-- Every next state of a command: one constructor per way it can end. -/
inductive Ran : Instr → State → State → Prop
  /-- The stage gate (R232). -/
  | gate (i s) (h : stageLegal i s.stage = false) :
      Ran i s { s with status := .stageError, errInfo := stageInfo s.stage }
  /-- Any other precise fault (R225). -/
  | fault (i s) (c : Cause) (info : Word) (hc : c.precise = true) (hs : c ≠ .stageError) :
      Ran i s { s with status := c, errInfo := info }
  | pack (w o v s) (hb : s.bb.length + w.toNat ≤ s.params.bbCap) :
      Ran (.pack w o v) s { s with bb := s.bb ++ packBits v.toNat w.toNat o, status := .ok, errInfo := 0 }
  | unpack (w o s v) :
      Ran (.unpack w o) s
        { s with bb := s.bb.drop w.toNat, r := { s.r with r0 := v }, status := .ok, errInfo := 0 }
  | bbClr (s) : Ran .bbClr s { s with bb := [], status := .ok, errInfo := 0 }
  | maskPack (s m) (hm : maskRegion s.params s.maskPresent s.mtxt = .ok m)
      (hb : s.bb.length + maskBits ≤ s.params.bbCap) :
      Ran .maskPack s { s with bb := s.bb ++ m, status := .ok, errInfo := 0 }
  | cfgClr (s) :
      Ran .cfgClr s { s with
        ovrDac := List.replicate s.params.layout.dac.length none
        ovrBias := List.replicate s.params.layout.bias.length none
        cfgValid := false, status := .ok, errInfo := 0 }
  | cfgSet (s half key value) (row : LayoutRow) (hr : (s.params.layout.rows half)[key.toNat]? = some row)
      (hv : value.toNat < 2 ^ row.width) :
      Ran (.cfgSet half key value) s { s with
        ovrDac := if half = .dac then s.ovrDac.set key.toNat (some value.toNat) else s.ovrDac
        ovrBias := if half = .bias then s.ovrBias.set key.toNat (some value.toNat) else s.ovrBias
        cfgValid := false, status := .ok, errInfo := 0 }
  | maskPut (s c) :
      Ran (.maskPut c) s { s with
        maskPresent := true
        mtxt := if s.mtxt.length < mtxtCap then s.mtxt ++ [c] else s.mtxt
        cfgValid := false, status := .ok, errInfo := 0 }
  | maskNone (s) :
      Ran .maskNone s { s with maskPresent := false, mtxt := [], cfgValid := false, status := .ok, errInfo := 0 }
  | cfgEncode (s bits) (h : s.encoded = .ok bits) :
      Ran .cfgEncode s { s with cfg := bits, cfgValid := true, status := .ok, errInfo := 0 }
  | sessInit (s en m e) :
      Ran (.sessInit en m e) s { s.hardReset with
        r := s.r, rxq := s.rxq, out := s.out ++ s.dropEvents, stage := .inited
        errMax := e, maxRuns := m, maxRunsEn := en, status := .ok, errInfo := 0 }
  | asicInit (s bits ta fa) (h : s.stage = .inited) (he : s.encoded = .ok bits) :
      Ran .asicInit s { s with
        cfg := bits, cfgValid := true
        out := s.out ++ (tobytes bits).map Event.txByte ++ [.latch .asicConfig 0 true, .latch .asicConfig 0 false]
        latch := false, latchT := .asicConfig, latchP := 0, txAnswers := ta, freeAnswers := fa
        stage := .asicDone, status := .ok, errInfo := 0 }
  /-- The write of ASIC.INIT failed: the configuration stays encoded (R147, R226). -/
  | asicInitFail (s bits) (k : Nat) (ta fa) (h : s.stage = .inited) (he : s.encoded = .ok bits) :
      Ran .asicInit s { s with
        cfg := bits, cfgValid := true, out := s.out ++ ((tobytes bits).take k).map Event.txByte
        status := .transportError, errInfo := 0, txAnswers := ta, freeAnswers := fa }
  /-- The write of VB.INIT, REG.READ, INJ.INIT or INJ.START failed (R226). -/
  | writeFail (i s) (bs : List Byte) (ta fa) :
      Ran i s { s with
        out := s.out ++ bs.map Event.txByte, status := .transportError, errInfo := 0
        txAnswers := ta, freeAnswers := fa }
  | vbSet (s ch code) (hv : code.toNat < 2 ^ s.params.vbW) :
      Ran (.vbSet ch code) s { s with vbCode := s.vbCode.set ch.toNat code.toNat, status := .ok, errInfo := 0 }
  | vbInit (s slot ta fa) (h : s.stage = .asicDone) :
      Ran (.vbInit slot) s { s with
        out := s.out ++ (tobytes s.vbBits).map Event.txByte ++
          [.latch .voltageBoard slot true, .latch .voltageBoard slot false]
        latch := false, latchT := .voltageBoard, latchP := slot, txAnswers := ta, freeAnswers := fa
        vbSlot := slot, stage := .voltDone, status := .ok, errInfo := 0 }
  /-- REG.READ comes to its hold (R153). -/
  | held (s addr ta fa) (h : s.stage.isOpen = true ∧ s.stage ≠ .readout) :
      Ran (.regRead addr) s { s with
        out := s.out ++ [.txByte addr], txAnswers := ta, freeAnswers := fa, busy := true }
  | regRead (s addr ta ra fa) (v : Word) (q) :
      Ran (.regRead addr) s { s with
        out := s.out ++ [.txByte addr], txAnswers := ta, rxAnswers := ra, freeAnswers := fa
        busy := false, rxq := q, r := { s.r with r0 := v }, status := .ok, errInfo := 0 }
  | regReadFail (s addr ta ra fa q) :
      Ran (.regRead addr) s { s with
        out := s.out ++ [.txByte addr], txAnswers := ta, rxAnswers := ra, freeAnswers := fa
        busy := false, rxq := q, status := .transportError, errInfo := 1 }
  | spiEnable (s) (h : s.stage = .injDone) :
      Ran .spiEnable s { s with
        spiEn := true, out := s.out ++ [.spiEn true], stage := .readout, status := .ok, errInfo := 0 }
  | sessClose (s) (h : s.stage.isOpen = true) :
      Ran .sessClose s { s with stage := .closed, termCause := .sessClose, status := .ok, errInfo := 0 }
  | rdProbe (s) :
      Ran .rdProbe s { s with r := { s.r with r0 := boolWord s.hitsPresent }, status := .ok, errInfo := 0 }
  | rdPollFail (s n q ra fa) :
      Ran (.rdPoll n) s { s with
        rxq := q, rxAnswers := ra, freeAnswers := fa, status := .transportError, errInfo := 1 }
  | rdPoll (s n ra fa) (h : s.stage = .readout) :
      Ran (.rdPoll n) s
        { ({ s with rxq := s.rxq.drop (s.pollCount n), rxAnswers := ra, freeAnswers := fa } : State).polled
            (s.rxq.take (s.pollCount n)) with status := .ok, errInfo := 0 }
  | hitPop (s h rest) (hq : s.hitq = h :: rest) :
      Ran .hitPop s { s with
        hitq := rest, r := ⟨h.col, h.row, h.toa, h.tot, boolWord h.valid⟩, status := .ok, errInfo := 0 }
  | injSet (s f v) : Ran (.injSet f v) s { s with injF := s.injF.set f v, status := .ok, errInfo := 0 }
  | injInit (s ta fa) (h : s.stage = .voltDone) :
      Ran .injInit s { s with
        out := s.out ++ (tobytes s.injDacBits).map Event.txByte ++
          [.latch .injectionDac s.injSlot true, .latch .injectionDac s.injSlot false]
        latch := false, latchT := .injectionDac, latchP := s.injSlot, txAnswers := ta, freeAnswers := fa
        stage := .injDone, status := .ok, errInfo := 0 }
  /-- INJ.START while injecting (R198). -/
  | injStartAgain (s) (h : s.stage = .injDone ∨ s.stage = .readout) (hi : s.injState = .injecting) :
      Ran .injStart s { s with status := .ok, errInfo := 0 }
  | injStart (s ta fa) (h : s.stage = .injDone ∨ s.stage = .readout) :
      Ran .injStart s { s with
        out := s.out ++ (tobytes s.injTimingBits).map Event.txByte ++
          [.latch .injectionTiming s.injSlot true, .latch .injectionTiming s.injSlot false] ++ [.injEn true]
        latch := false, latchT := .injectionTiming, latchP := s.injSlot, txAnswers := ta, freeAnswers := fa
        injState := .injecting, injEn := true, status := .ok, errInfo := 0 }
  /-- INJ.STOP while not injecting (R199). -/
  | injStopAgain (s) : Ran .injStop s { s with status := .ok, errInfo := 0 }
  | injStop (s) (h : s.injState = .injecting) :
      Ran .injStop s { s with
        injEn := false, out := s.out ++ [.injEn false], injState := .idle, status := .ok, errInfo := 0 }
  | errRecord (s) (h : s.stage.isOpen = true) :
      Ran .errRecord s { s with
        errCount := satInc s.errCount
        r := { s.r with r0 := satInc s.errCount }
        stage := if s.errMax.toNat < (satInc s.errCount).toNat then .closed else s.stage
        termCause := if s.errMax.toNat < (satInc s.errCount).toNat then .budgetExceeded else s.termCause
        status := .ok, errInfo := 0 }
  | errExceeded (s) :
      Ran .errExceeded s { s with r := { s.r with r0 := boolWord s.exceeded }, status := .ok, errInfo := 0 }

/-- `exec` that answers a next state answers one of `Ran`. -/
theorem exec_ran {i : Instr} {s t : State} (h : exec i s = .next t) : Ran i s t := by
  cases i with
  | pack w o v =>
    simp only [exec, execPack] at h
    rcases gated_next h with ⟨hg, rfl⟩ | ⟨_, h⟩
    · exact .gate _ _ hg
    · split at h
      · simp at h; subst h; exact .fault _ _ _ _ rfl (by decide)
      · by_cases hv : v.toNat < 2 ^ w.toNat
        · simp only [pack, if_pos hv] at h
          split at h <;> simp at h <;> subst h
          · exact .fault _ _ _ _ rfl (by decide)
          · exact .pack w o v s (by omega)
        · simp only [pack, if_neg hv, faulted_eq_next] at h
          subst h; exact .fault _ _ _ _ rfl (by decide)
  | unpack w o =>
    simp only [exec, execUnpack] at h
    rcases gated_next h with ⟨hg, rfl⟩ | ⟨_, h⟩
    · exact .gate _ _ hg
    · split at h
      · simp at h; subst h; exact .fault _ _ _ _ rfl (by decide)
      · split at h <;> simp at h <;> subst h
        · exact .fault _ _ _ _ rfl (by decide)
        · exact .unpack ..
  | bbClr =>
    simp only [exec, execBbClr] at h
    rcases gated_next h with ⟨hg, rfl⟩ | ⟨_, h⟩
    · exact .gate _ _ hg
    · simp at h; subst h; exact .bbClr ..
  | maskPack =>
    simp only [exec, execMaskPack] at h
    rcases gated_next h with ⟨hg, rfl⟩ | ⟨_, h⟩
    · exact .gate _ _ hg
    · split at h
      · simp at h; subst h; exact .fault _ _ _ _ rfl (by decide)
      · split at h <;> simp at h <;> subst h
        · exact .fault _ _ _ _ rfl (by decide)
        · exact .maskPack s _ (by assumption) (by omega)
  | cfgClr =>
    simp only [exec, execCfgClr] at h
    rcases gated_next h with ⟨hg, rfl⟩ | ⟨_, h⟩
    · exact .gate _ _ hg
    · simp at h; subst h; exact .cfgClr ..
  | cfgSet hf k v =>
    simp only [exec, execCfgSet] at h
    rcases gated_next h with ⟨hg, rfl⟩ | ⟨_, h⟩
    · exact .gate _ _ hg
    · split at h
      · simp at h; subst h; exact .fault _ _ _ _ rfl (by decide)
      · split at h
        · simp only [succeeded_eq_next] at h; subst h
          have hr := Ran.cfgSet s hf k v _ (by assumption) (by assumption)
          cases hf <;> exact hr
        · simp at h; subst h; exact .fault _ _ _ _ rfl (by decide)
  | maskPut c =>
    simp only [exec, execMaskPut] at h
    rcases gated_next h with ⟨hg, rfl⟩ | ⟨_, h⟩
    · exact .gate _ _ hg
    · simp at h; subst h; exact .maskPut ..
  | maskNone =>
    simp only [exec, execMaskNone] at h
    rcases gated_next h with ⟨hg, rfl⟩ | ⟨_, h⟩
    · exact .gate _ _ hg
    · simp at h; subst h; exact .maskNone ..
  | cfgEncode =>
    simp only [exec, execCfgEncode] at h
    rcases gated_next h with ⟨hg, rfl⟩ | ⟨_, h⟩
    · exact .gate _ _ hg
    · split at h <;> simp at h <;> subst h
      · exact .fault _ _ _ _ rfl (by decide)
      · exact .cfgEncode _ _ (by assumption)
  | sessInit en m e =>
    simp only [exec, execSessInit] at h
    rcases gated_next h with ⟨hg, rfl⟩ | ⟨_, h⟩
    · exact .gate _ _ hg
    · simp at h; subst h; exact .sessInit ..
  | asicInit =>
    simp only [exec, execAsicInit] at h
    rcases gated_next h with ⟨hg, rfl⟩ | ⟨hl, h⟩
    · exact .gate _ _ hg
    · have hs : s.stage = .inited := by simpa [stageLegal] using hl
      split at h
      · simp at h; subst h; exact .fault _ _ _ _ rfl (by decide)
      · rename_i b hb
        rcases srWrite_cases { s with cfg := b, cfgValid := true } b .asicConfig 0 with ⟨k, ta, fa, e⟩ | ⟨ta, fa, e⟩
        · rw [e] at h; injection h with h; subst h; exact .asicInitFail _ _ _ _ _ hs hb
        · rw [e] at h; simp only [succeeded_eq_next] at h; subst h; exact .asicInit _ _ _ _ hs hb
  | vbSet c v =>
    simp only [exec, execVbSet] at h
    rcases gated_next h with ⟨hg, rfl⟩ | ⟨_, h⟩
    · exact .gate _ _ hg
    · split at h
      · split at h <;> simp at h <;> subst h
        · exact .vbSet _ _ _ (by assumption)
        · exact .fault _ _ _ _ rfl (by decide)
      · simp at h; subst h; exact .fault _ _ _ _ rfl (by decide)
  | vbInit sl =>
    simp only [exec, execVbInit] at h
    rcases gated_next h with ⟨hg, rfl⟩ | ⟨hl, h⟩
    · exact .gate _ _ hg
    · have hs : s.stage = .asicDone := by simpa [stageLegal] using hl
      split at h
      · rcases srWrite_cases s s.vbBits .voltageBoard sl with ⟨k, ta, fa, e⟩ | ⟨ta, fa, e⟩
        · rw [e] at h; injection h with h; subst h; exact .writeFail ..
        · rw [e] at h; simp only [succeeded_eq_next] at h; subst h; exact .vbInit _ _ _ _ hs
      · simp at h; subst h; exact .fault _ _ _ _ rfl (by decide)
  | regRead a =>
    simp only [exec, execRegRead] at h
    rcases gated_next h with ⟨hg, rfl⟩ | ⟨hl, h⟩
    · exact .gate _ _ hg
    · rcases txWrite_cases s [a] with ⟨k, ta, fa, e⟩ | ⟨ta, fa, e⟩
      · rw [e] at h; injection h with h; subst h; exact .writeFail ..
      · rw [e] at h
        simp only at h
        split at h
        · rcases finishRead_cases { s with out := s.out ++ [a].map Event.txByte, txAnswers := ta, freeAnswers := fa, busy := true } with ⟨j, ra, fa', e⟩ | ⟨ra, fa', e⟩
          · rw [e] at h; injection h with h; subst h; exact .regReadFail ..
          · rw [e] at h; injection h with h; subst h; exact .regRead ..
        · injection h with h; subst h; exact .held _ _ _ _ (by simpa [stageLegal] using hl)
  | spiEnable =>
    simp only [exec, execSpiEnable] at h
    rcases gated_next h with ⟨hg, rfl⟩ | ⟨hl, h⟩
    · exact .gate _ _ hg
    · simp only [succeeded_eq_next] at h; subst h; exact .spiEnable _ (by simpa [stageLegal] using hl)
  | sessClose =>
    simp only [exec, execSessClose] at h
    rcases gated_next h with ⟨hg, rfl⟩ | ⟨hl, h⟩
    · exact .gate _ _ hg
    · simp only [succeeded_eq_next] at h; subst h; exact .sessClose _ (by simpa [stageLegal] using hl)
  | rdProbe =>
    simp only [exec, execRdProbe] at h
    rcases gated_next h with ⟨hg, rfl⟩ | ⟨hl, h⟩
    · exact .gate _ _ hg
    · simp only [succeeded_eq_next] at h; subst h; exact .rdProbe ..
  | rdPoll n =>
    simp only [exec, execRdPoll] at h
    rcases gated_next h with ⟨hg, rfl⟩ | ⟨hl, h⟩
    · exact .gate _ _ hg
    · rcases rxRead_cases s (s.pollCount n) with ⟨k, ta, fa, e⟩ | ⟨ta, fa, e⟩
      · rw [e] at h; injection h with h; subst h; exact .rdPollFail ..
      · rw [e] at h; simp only [succeeded_eq_next] at h; subst h; exact .rdPoll _ _ _ _ (by simpa [stageLegal] using hl)
  | hitPop =>
    simp only [exec, execHitPop] at h
    rcases gated_next h with ⟨hg, rfl⟩ | ⟨hl, h⟩
    · exact .gate _ _ hg
    · split at h
      · simp at h; subst h; exact .fault _ _ _ _ rfl (by decide)
      · simp only [succeeded_eq_next] at h; subst h; exact .hitPop _ _ _ (by assumption)
  | injSet f v =>
    simp only [exec, execInjSet] at h
    rcases gated_next h with ⟨hg, rfl⟩ | ⟨hl, h⟩
    · exact .gate _ _ hg
    · simp only [succeeded_eq_next] at h; subst h; exact .injSet ..
  | injInit =>
    simp only [exec, execInjInit] at h
    rcases gated_next h with ⟨hg, rfl⟩ | ⟨hl, h⟩
    · exact .gate _ _ hg
    · have hs : s.stage = .voltDone := by simpa [stageLegal] using hl
      split at h
      · simp at h; subst h; exact .fault _ _ _ _ rfl (by decide)
      · rcases srWrite_cases s s.injDacBits .injectionDac s.injSlot with ⟨k, ta, fa, e⟩ | ⟨ta, fa, e⟩
        · rw [e] at h; injection h with h; subst h; exact .writeFail ..
        · rw [e] at h; simp only [succeeded_eq_next] at h; subst h; exact .injInit _ _ _ hs
  | injStart =>
    simp only [exec, execInjStart] at h
    rcases gated_next h with ⟨hg, rfl⟩ | ⟨hl, h⟩
    · exact .gate _ _ hg
    · split at h
      · simp only [succeeded_eq_next] at h; subst h; exact .injStartAgain _ (by simpa [stageLegal] using hl) (by assumption)
      · split at h
        · simp at h; subst h; exact .fault _ _ _ _ rfl (by decide)
        · rcases srWrite_cases s s.injTimingBits .injectionTiming s.injSlot with ⟨k, ta, fa, e⟩ | ⟨ta, fa, e⟩
          · rw [e] at h; injection h with h; subst h; exact .writeFail ..
          · rw [e] at h; simp only [succeeded_eq_next] at h; subst h; exact .injStart _ _ _ (by simpa [stageLegal] using hl)
  | injStop =>
    simp only [exec, execInjStop] at h
    rcases gated_next h with ⟨hg, rfl⟩ | ⟨hl, h⟩
    · exact .gate _ _ hg
    · split at h
      · simp only [succeeded_eq_next] at h; subst h; exact .injStop _ (by assumption)
      · simp only [succeeded_eq_next] at h; subst h; exact .injStopAgain _
  | errRecord =>
    simp only [exec, execErrRecord] at h
    rcases gated_next h with ⟨hg, rfl⟩ | ⟨hl, h⟩
    · exact .gate _ _ hg
    · rw [closeIfExceeded_eq] at h; simp only [succeeded_eq_next] at h; subst h; exact .errRecord _ (by simpa [stageLegal] using hl)
  | errExceeded =>
    simp only [exec, execErrExceeded] at h
    rcases gated_next h with ⟨hg, rfl⟩ | ⟨hl, h⟩
    · exact .gate _ _ hg
    · simp only [succeeded_eq_next] at h; subst h; exact .errExceeded ..

end Sys2Proof.Machine
end

