-- ==== Sys2Proof/Laws/Arguments.lean ====
section
/-! SUPPORT. The state of the block and the arguments of its step (spec/10_state.md R20): what each part of the pair is,
and what a step takes from its arguments. -/

namespace Sys2Proof.Machine

@[simp] theorem resetOf_toArchState (p : Params) : (State.resetOf p).toArchState = ArchState.resetOf p := rfl
@[simp] theorem resetOf_params (p : Params) : (State.resetOf p).params = p := rfl
@[simp] theorem hardReset_toArchState (s : State) : s.hardReset.toArchState = ArchState.resetOf s.params := rfl
@[simp] theorem hardReset_toStepArguments (s : State) : s.hardReset.toStepArguments = s.toStepArguments := rfl
@[simp] theorem one_params (p : Params) (m : Option Input) (tx rx : TransportOutcome) :
    (StepArguments.one p m tx rx).params = p := rfl
@[simp] theorem one_inputs (p : Params) (m : Option Input) (tx rx : TransportOutcome) :
    (StepArguments.one p m tx rx).inputs = m.toList := rfl
@[simp] theorem one_txAnswers (p : Params) (m : Option Input) (tx rx : TransportOutcome) :
    (StepArguments.one p m tx rx).txAnswers = [tx] := rfl
@[simp] theorem one_rxAnswers (p : Params) (m : Option Input) (tx rx : TransportOutcome) :
    (StepArguments.one p m tx rx).rxAnswers = [rx] := rfl

/-- The pair is its two parts: the form in which a step with its arguments and a step of the machine are compared. -/
theorem State.parts_eta (s : State) : { toArchState := s.toArchState, toStepArguments := s.toStepArguments } = s := rfl

/-- The step of R20 answers `b` exactly when the machine, with those arguments, goes to a state of the block `b`. -/
theorem ArchState.stepWith_eq_next {p : Params} {m : Option Input} {tx rx : TransportOutcome} {a b : ArchState} :
    a.stepWith p m tx rx = .next b ↔
      ∃ left, step { toArchState := a, toStepArguments := .one p m tx rx } =
        .next { toArchState := b, toStepArguments := left } := by
  unfold ArchState.stepWith step
  constructor
  · intro h
    split at h
    · rename_i t ht; injection h with h; subst h; exact ⟨t.toStepArguments, ht⟩
    · cases h
    · cases h
  · rintro ⟨left, h⟩; rw [h]

/-- The move taken in the hold of REG.READ is no command word (R87), and is taken alone as it is taken from the
list. -/
theorem nextMove_alone {l left : List Input} {m : Input} (h : nextMove l = some (m, left)) :
    nextMove [m] = some (m, []) := by
  induction l generalizing left with
  | nil => cases h
  | cons x rest ih =>
    cases x with
    | command w =>
      simp only [nextMove] at h
      split at h
      · cases h
      · rename_i hr; cases h; exact ih hr
    | rxArrive b => cases h; rfl
    | heldReadFails j => cases h; rfl
    | reset => cases h; rfl

/-! What a command does to the state of the block depends on its arguments through the parameters and the draws alone. -/

/-- The draw a transport write is answered with (R141). -/
def StepArguments.txDraw (g : StepArguments) : TransportOutcome :=
  match g.txAnswers with | x :: _ => x | [] => Config.freeTxOutcome g.freeAnswers

/-- The draw a transport read is answered with (R142). -/
def StepArguments.rxDraw (g : StepArguments) : TransportOutcome :=
  match g.rxAnswers with | x :: _ => x | [] => Config.freeRxOutcome g.freeAnswers

/-- The arguments after a transport write has been answered. -/
def StepArguments.afterTx (g : StepArguments) : StepArguments :=
  match g.txAnswers with
  | _ :: rest => { g with txAnswers := rest }
  | [] => { g with freeAnswers := g.freeAnswers + 1 }

/-- The arguments after a transport read has been answered. -/
def StepArguments.afterRx (g : StepArguments) : StepArguments :=
  match g.rxAnswers with
  | _ :: rest => { g with rxAnswers := rest }
  | [] => { g with freeAnswers := g.freeAnswers + 1 }

@[simp] theorem afterRx_params (g : StepArguments) : g.afterRx.params = g.params := by
  unfold StepArguments.afterRx; split <;> rfl

@[simp] theorem afterTx_params (g : StepArguments) : g.afterTx.params = g.params := by
  unfold StepArguments.afterTx; split <;> rfl

theorem answerTx_eq (a : ArchState) (g : StepArguments) :
    (State.mk a g).answerTx = (g.txDraw, ⟨a, g.afterTx⟩) := by
  obtain ⟨p, ins, ta, ra, fa⟩ := g; cases ta <;> rfl

theorem answerRx_eq (a : ArchState) (g : StepArguments) :
    (State.mk a g).answerRx = (g.rxDraw, ⟨a, g.afterRx⟩) := by
  obtain ⟨p, ins, ta, ra, fa⟩ := g; cases ra <;> rfl

/-- The state of the block in a next state. -/
def archOf : Result → Option ArchState
  | .next t => some t.toArchState
  | _ => none

theorem decByte_parts (x : Byte) (a : ArchState) {g g' : StepArguments} (h : g.params = g'.params) :
    ∃ b ev, decByte x ⟨a, g⟩ = (⟨b, g⟩, ev) ∧ decByte x ⟨a, g'⟩ = (⟨b, g'⟩, ev) := by
  simp only [decByte, awaitSync, readFrame, emitFrame, h]
  repeat' (first | exact ⟨_, _, rfl, rfl⟩ | split)

theorem decBytes_parts (bs : List Byte) {g g' : StepArguments} (h : g.params = g'.params) (a : ArchState)
    (m n : Nat) :
    ∃ b k l, decBytes bs ⟨a, g⟩ m n = (⟨b, g⟩, k, l) ∧ decBytes bs ⟨a, g'⟩ m n = (⟨b, g'⟩, k, l) := by
  induction bs generalizing a m n with
  | nil => exact ⟨_, _, _, rfl, rfl⟩
  | cons x xs ih =>
    obtain ⟨b, ev, e, e'⟩ := decByte_parts x a h
    cases ev <;> simp only [decBytes, e, e'] <;> exact ih _ _ _

theorem polled_parts (bs : List Byte) {g g' : StepArguments} (h : g.params = g'.params) (a : ArchState) :
    ∃ b, (State.mk a g).polled bs = ⟨b, g⟩ ∧ (State.mk a g').polled bs = ⟨b, g'⟩ := by
  obtain ⟨b, k, l, e, e'⟩ := decBytes_parts bs h a 0 0
  simp only [State.polled, e, e', State.closeAfterPoll, State.exceeded]
  repeat' (first | exact ⟨_, rfl, rfl⟩ | split)

/-- `tx_write` with its arguments apart: the block's state after it, and what is left of them (R141). -/
theorem txWrite_parts (bs : List Byte) (a : ArchState) (g : StepArguments) :
    (State.mk a g).txWrite bs =
      match g.txDraw with
      | .ok => .ok ⟨{ a with out := a.out ++ txEvents bs }, g.afterTx⟩
      | .fail k => .error
          ⟨{ a with out := a.out ++ txEvents (bs.take k), status := .transportError, errInfo := 0 }, g.afterTx⟩ := by
  unfold State.txWrite
  rw [answerTx_eq]
  cases g.txDraw <;> rfl

/-- `sr_write` with its arguments apart (R143). -/
theorem srWrite_parts (bits : Bits) (l : LatchTarget) (p : Byte) (a : ArchState) (g : StepArguments) :
    (State.mk a g).srWrite bits l p =
      match g.txDraw with
      | .ok => .ok ⟨{ a with
          out := a.out ++ txEvents (tobytes bits) ++ [.latch l p true] ++ [.latch l p false]
          latch := false, latchT := l, latchP := p }, g.afterTx⟩
      | .fail k => .error
          ⟨{ a with
            out := a.out ++ txEvents ((tobytes bits).take k), status := .transportError, errInfo := 0 },
            g.afterTx⟩ := by
  unfold State.srWrite
  rw [txWrite_parts]
  cases g.txDraw <;> rfl

/-- `rx_read` with its arguments apart (R142). -/
theorem rxRead_parts (m : Nat) (a : ArchState) (g : StepArguments) :
    (State.mk a g).rxRead m =
      match g.rxDraw with
      | .ok => .ok (a.rxq.take m, ⟨{ a with rxq := a.rxq.drop m }, g.afterRx⟩)
      | .fail j => .error
          ⟨{ a with rxq := a.rxq.drop (min j m), status := .transportError, errInfo := 1 }, g.afterRx⟩ := by
  unfold State.rxRead
  rw [answerRx_eq]
  cases g.rxDraw <;> rfl

/-- The read half of REG.READ depends on its arguments through RESP_LEN and its draw (R153). -/
theorem finishRead_parts (a : ArchState) {g g' : StepArguments} (hp : g.params = g'.params)
    (hr : g.rxDraw = g'.rxDraw) : archOf (finishRead ⟨a, g⟩) = archOf (finishRead ⟨a, g'⟩) := by
  simp only [finishRead, rxRead_parts, hp, hr]
  cases g'.rxDraw <;> rfl

/-- RD.POLL depends on its arguments through the parameters and its draw (R176). -/
theorem execRdPoll_parts (n : Word) (a : ArchState) {g g' : StepArguments} (hp : g.params = g'.params)
    (hr : g.rxDraw = g'.rxDraw) : archOf (execRdPoll n ⟨a, g⟩) = archOf (execRdPoll n ⟨a, g'⟩) := by
  simp only [execRdPoll, gated, State.pollCount, rxRead_parts, hp, hr]
  split
  · cases g'.rxDraw with
    | fail j => rfl
    | ok =>
      simp only
      generalize List.take _ _ = bs
      generalize ({ a with rxq := List.drop _ _ } : ArchState) = b
      obtain ⟨c, e, e'⟩ := polled_parts bs (g := g.afterRx) (g' := g'.afterRx) (by simp [hp]) b
      rw [e, e']; rfl
  · rfl

/-- A COMMAND DEPENDS ON ITS ARGUMENTS THROUGH THE PARAMETERS AND THE DRAWS ALONE (R20): with the same parameters, the
same draw for its write, and the same draw for its read (RD.POLL reads first, REG.READ after its write), the state of
the block goes to the same state. -/
theorem exec_parts (i : Instr) (a : ArchState) {g g' : StepArguments} (hp : g.params = g'.params)
    (ht : g.txDraw = g'.txDraw) (hr : (∃ n, i = .rdPoll n) → g.rxDraw = g'.rxDraw)
    (hr' : (∃ x, i = .regRead x) → g.afterTx.rxDraw = g'.afterTx.rxDraw) :
    archOf (exec i ⟨a, g⟩) = archOf (exec i ⟨a, g'⟩) := by
  have hq : g.afterTx.params = g'.afterTx.params := by simp [hp]
  cases i with
  | rdPoll n => exact execRdPoll_parts n a hp (hr ⟨n, rfl⟩)
  | regRead x =>
    simp only [exec, execRegRead, gated, txWrite_parts, ht]
    split
    · cases g'.txDraw with
      | fail k => rfl
      | ok =>
        by_cases hc : g'.afterTx.params.respLen ≤ a.rxq.length
        · simpa only [State.responseReady, hq, hc, decide_true, if_true] using finishRead_parts _ hq (hr' ⟨x, rfl⟩)
        · simp only [State.responseReady, hq, hc, decide_false, Bool.false_eq_true, if_false, archOf]
    · rfl
  | asicInit =>
    simp only [exec, execAsicInit, gated, State.encoded, hp]
    split
    · split
      · rfl
      · simp only [srWrite_parts, ht]; cases g'.txDraw <;> rfl
    · rfl
  | vbInit slot =>
    simp only [exec, execVbInit, gated, srWrite_parts, ht, State.vbBits, hp]
    cases g'.txDraw <;> repeat' (first | rfl | split)
  | injInit =>
    simp only [exec, execInjInit, gated, srWrite_parts, ht, State.injCheck, State.injDacBits, State.injSlot, hp]
    cases g'.txDraw <;> repeat' (first | rfl | split)
  | injStart =>
    simp only [exec, execInjStart, gated, srWrite_parts, ht, State.injCheck, State.injTimingBits, State.injSlot, hp]
    cases g'.txDraw <;> repeat' (first | rfl | split)
  | cfgSet half key value =>
    simp only [exec, execCfgSet, gated, hp]
    cases half <;> repeat' (first | rfl | split)
  | _ =>
    obtain ⟨p, ins, ta, ra, fa⟩ := g
    obtain ⟨p', ins', ta', ra', fa'⟩ := g'
    obtain rfl : p = p' := hp
    first
    | rfl
    | (simp only [exec, execPack, execUnpack, execMaskPack, execCfgEncode, execVbSet, execSpiEnable, execSessClose,
        execRdProbe, execHitPop, execInjStop, execErrRecord, closeIfExceeded_eq, gated, State.encoded]
       repeat' (first | rfl | split))

end Sys2Proof.Machine
end

