-- ==== Sys2Proof/Laws/Bitstream.lean ====
section
/-! SUPPORT. The lengths of the bit sequences that the Config Encoder builds (spec/20_memory.md R60,
spec/41_config_encoder.md R122 to R127). -/

namespace Sys2Proof.Machine

@[simp] theorem packBits_length (v w : Nat) (o : BitOrder) : (packBits v w o).length = w := by
  cases o <;> simp [packBits]

/-- A write inside the buffer keeps its length (R60). -/
theorem memWrite_length (buf : Bits) (off n : Nat) (s : Bits) (hs : s.length = n) (hb : off + n ≤ buf.length) :
    (memWrite buf off n s).length = buf.length := by
  simp [memWrite]; omega

/-- The default codes of a half fill its slots (R127). -/
theorem defaultRows_length (o : BitOrder) (rows : List LayoutRow) : (defaultRows o rows).length = rowsWidth rows := by
  induction rows with
  | nil => rfl
  | cons r rs ih => simp [defaultRows, rowsWidth] at ih ⊢

/-- Slots that tile from `start` end at most `rowsWidth` bits later (R121). -/
theorem rowsTile_end {rows : List LayoutRow} {start : Nat} (h : rowsTile start rows = true) :
    ∀ r ∈ rows, start ≤ r.offset ∧ r.offset + r.width ≤ start + rowsWidth rows := by
  induction rows generalizing start with
  | nil => simp
  | cons q qs ih =>
    simp only [rowsTile, Bool.and_eq_true, decide_eq_true_eq] at h
    obtain ⟨rfl, h⟩ := h
    intro r hr
    have hw : rowsWidth (q :: qs) = q.width + rowsWidth qs := by simp [rowsWidth]
    rcases List.mem_cons.mp hr with rfl | hr
    · omega
    · have := ih h r hr; omega

/-- The override loop keeps the length of the bitstream (R126). -/
theorem writeOverrides_length (o : BitOrder) {rows : List LayoutRow} (ovr : List (Option Nat)) {s : Bits}
    (h : ∀ r ∈ rows, r.offset + r.width ≤ s.length) : (writeOverrides o rows ovr s).length = s.length := by
  induction rows generalizing ovr s with
  | nil => simp [writeOverrides]
  | cons r rs ih =>
    cases ovr with
    | nil => simp [writeOverrides]
    | cons x xs =>
      cases x with
      | none => exact ih xs (fun q hq => h q (List.mem_cons_of_mem _ hq))
      | some v =>
        have hl := memWrite_length s r.offset r.width (packBits v r.width o) (packBits_length _ _ _)
          (h r (List.mem_cons_self ..))
        simp only [writeOverrides]
        rw [ih xs (by rw [hl]; exact fun q hq => h q (List.mem_cons_of_mem _ hq)), hl]

/-- The packed cells of a grid whose rows are all `n` long (R103). -/
theorem packmask_length {n : Nat} {g : List Bits} (h : ∀ row ∈ g, row.length = n) :
    (packmask g).length = g.length * n := by
  induction g with
  | nil => simp [packmask]
  | cons r rs ih =>
    have h1 := ih (fun q hq => h q (List.mem_cons_of_mem _ hq))
    have h2 := h r (List.mem_cons_self ..)
    simp only [packmask, List.flatten_cons, List.length_append, List.length_cons] at h1 ⊢
    rw [h1, h2, Nat.add_mul]; omega

/-- What `parse_mask` accepts is a 35 by 35 grid (R124). -/
theorem parseMask_grid {text : List Byte} {g : List Bits} (h : parseMask text = .ok g) :
    g.length = nRow ∧ ∀ row ∈ g, row.length = nCol := by
  unfold parseMask at h
  split at h
  · cases h
  · rename_i hn
    split at h
    · cases h
    · rename_i hl
      split at h
      · cases h
      · injection h with h
        subst h
        rw [List.findIdx?_eq_none_iff] at hl
        refine ⟨by simpa using hn, ?_⟩
        intro row hr
        obtain ⟨l, hm, rfl⟩ := List.mem_map.mp hr
        simpa using hl l hm

/-- The mask region has one bit a cell (R125). -/
theorem maskRegion_length {p : Params} (hp : p.analogPattern.length = maskBits) {present : Bool} {text : List Byte}
    {m : Bits} (h : maskRegion p present text = .ok m) : m.length = maskBits := by
  unfold maskRegion at h
  split at h
  · split at h
    · cases h
    · rename_i g hg
      injection h with h; subst h
      obtain ⟨h1, h2⟩ := parseMask_grid hg
      rw [packmask_length h2, h1]; rfl
  · injection h with h; subst h; exact hp

/-- What the statements use of the constraints on the parameters (R12, R121). -/
theorem params_wf_layout {p : Params} (h : p.wf = true) :
    p.analogPattern.length = maskBits ∧ rowsTile 0 p.layout.bias = true ∧
      rowsTile p.layout.biasEnd p.layout.dac = true := by
  simp only [Params.wf, Layout.wf, rowsWf, Bool.and_eq_true, decide_eq_true_eq] at h
  tauto

/-- The bitstream has `L_CFG` bits (R126). -/
theorem encodeConfig_length {p : Params} (hp : p.wf = true) {ob od : List (Option Nat)} {present : Bool}
    {text : List Byte} {s : Bits} (h : encodeConfig p ob od present text = .ok s) : s.length = p.layout.lCfg := by
  obtain ⟨ha, hb, hd⟩ := params_wf_layout hp
  unfold encodeConfig at h
  split at h
  · cases h
  · rename_i m hm
    injection h with h
    have h0 : (defaultBits p).length = p.layout.lCfg := by
      simp [defaultBits, defaultRows_length, ha, Layout.lCfg, Layout.maskOff, Layout.biasEnd, Nat.add_assoc]
    have h1 : (writeOverrides p.orderCfg p.layout.bias ob (defaultBits p)).length = p.layout.lCfg := by
      rw [writeOverrides_length, h0]
      intro r hr
      have := rowsTile_end hb r hr
      rw [h0]; simp only [Layout.lCfg, Layout.maskOff, Layout.biasEnd]; omega
    have h2 : (writeOverrides p.orderCfg p.layout.dac od
        (writeOverrides p.orderCfg p.layout.bias ob (defaultBits p))).length = p.layout.lCfg := by
      rw [writeOverrides_length, h1]
      intro r hr
      have := rowsTile_end hd r hr
      rw [h1]; simp only [Layout.lCfg, Layout.maskOff]; omega
    rw [← h, memWrite_length _ _ _ _ (maskRegion_length ha hm), h2]
    rw [h2]; simp [Layout.lCfg]

end Sys2Proof.Machine
end

