-- ==== Sys2Proof/Laws/Decode.lean ====
section
/-! SUPPORT. The four fields of a command word (spec/30_encoding.md R81): a word is its fields, and masking a word
masks its fields. -/

namespace Sys2Proof

theorem fieldOp_assembleWord (op a : Byte) (b : BitVec 16) (imm : Word) : fieldOp (assembleWord op a b imm) = op := by
  simp only [fieldOp, assembleWord]; ext i hi; simp [BitVec.getElem_extractLsb']; grind

theorem fieldA_assembleWord (op a : Byte) (b : BitVec 16) (imm : Word) : fieldA (assembleWord op a b imm) = a := by
  simp only [fieldA, assembleWord]; ext i hi; simp [BitVec.getElem_extractLsb']; grind

theorem fieldB_assembleWord (op a : Byte) (b : BitVec 16) (imm : Word) : fieldB (assembleWord op a b imm) = b := by
  simp only [fieldB, assembleWord]; ext i hi; simp [BitVec.getElem_extractLsb']; grind

theorem fieldImm_assembleWord (op a : Byte) (b : BitVec 16) (imm : Word) :
    fieldImm (assembleWord op a b imm) = imm := by
  simp only [fieldImm, assembleWord]; ext i hi; simp [BitVec.getElem_extractLsb']; grind

/-- The decoder sees the fields of an assembled word. -/
theorem decode_assembleWord (op a : Byte) (b : BitVec 16) (imm : Word) :
    decode (assembleWord op a b imm) = decodeFields op a b imm := by
  simp [decode, fieldOp_assembleWord, fieldA_assembleWord, fieldB_assembleWord, fieldImm_assembleWord]

/-- A word is its four fields. -/
theorem assembleWord_fields (x : CommandWord) :
    assembleWord (fieldOp x) (fieldA x) (fieldB x) (fieldImm x) = x := by
  simp only [fieldOp, fieldA, fieldB, fieldImm, assembleWord]
  ext i hi
  simp only [BitVec.getElem_append, BitVec.getElem_extractLsb']
  split
  · simp only [Nat.zero_add, BitVec.getLsbD_eq_getElem hi]
  · split
    · rw [show 32 + (i - 32) = i by omega, BitVec.getLsbD_eq_getElem hi]
    · split
      · rw [show 48 + (i - 32 - 16) = i by omega, BitVec.getLsbD_eq_getElem hi]
      · rw [show 56 + (i - 32 - 16 - 8) = i by omega, BitVec.getLsbD_eq_getElem hi]

/-- Masking a word masks each field. -/
theorem assembleWord_and (op op' a a' : Byte) (b b' : BitVec 16) (imm imm' : Word) :
    assembleWord op a b imm &&& assembleWord op' a' b' imm' =
      assembleWord (op &&& op') (a &&& a') (b &&& b') (imm &&& imm') := by
  apply BitVec.eq_of_getLsbD_eq
  intro i _
  simp only [assembleWord, BitVec.getLsbD_and, BitVec.getLsbD_append]
  by_cases h1 : i < 32 <;> by_cases h2 : i - 32 < 16 <;> by_cases h3 : i - 32 - 16 < 8 <;> simp only [h1, h2, h3, if_true, if_false]

/-- Two words are equal when their fields are. -/
theorem assembleWord_inj {op op' a a' : Byte} {b b' : BitVec 16} {imm imm' : Word} :
    assembleWord op a b imm = assembleWord op' a' b' imm' ↔ op = op' ∧ a = a' ∧ b = b' ∧ imm = imm' := by
  constructor
  · intro h
    exact ⟨by rw [← fieldOp_assembleWord op a b imm, h, fieldOp_assembleWord],
      by rw [← fieldA_assembleWord op a b imm, h, fieldA_assembleWord],
      by rw [← fieldB_assembleWord op a b imm, h, fieldB_assembleWord],
      by rw [← fieldImm_assembleWord op a b imm, h, fieldImm_assembleWord]⟩
  · rintro ⟨rfl, rfl, rfl, rfl⟩; rfl

/-- A word selects a row of the opcode table exactly when its opcode is the row's and the row's reserved bits of it
are 0 (R84). -/
theorem selects_iff (x : CommandWord) (op ra : Byte) (rb : BitVec 16) (ri : Word) :
    x &&& assembleWord 0xFF ra rb ri = assembleWord op 0 0 0 ↔
      fieldOp x = op ∧ fieldA x &&& ra = 0 ∧ fieldB x &&& rb = 0 ∧ fieldImm x &&& ri = 0 := by
  conv_lhs => rw [← assembleWord_fields x, assembleWord_and, assembleWord_inj]
  rw [show fieldOp x &&& 0xFF = fieldOp x from BitVec.and_allOnes]

end Sys2Proof
end

