-- ==== Sys2Proof/Laws/PerInstr.lean ====
section
/-! SUPPORT. A family of statements about every command as syntax: its word selects a row of the opcode table (R84),
so it has the opcode of that row and zeros in every reserved bit. -/

namespace Sys2Proof.Laws.SelectsARow

/-- The word of the command selects a row of spec/opcode_table.json (R84). -/
def Statement (i : Instr) : Prop := ∃ row ∈ opcodeRows, encode i &&& row.2 = row.1

/-- A word made of fields selects the row whose reserved bits those fields leave 0. -/
theorem of_row {op a ra : Byte} {b rb : BitVec 16} {imm ri : Word}
    (hm : (assembleWord op 0 0 0, assembleWord 0xFF ra rb ri) ∈ opcodeRows)
    (ha : a &&& ra = 0) (hb : b &&& rb = 0) (hi : imm &&& ri = 0) :
    ∃ row ∈ opcodeRows, assembleWord op a b imm &&& row.2 = row.1 := by
  refine ⟨_, hm, (selects_iff _ _ _ _ _).mpr ?_⟩
  simp [fieldOp_assembleWord, fieldA_assembleWord, fieldB_assembleWord, fieldImm_assembleWord, ha, hb, hi]

theorem pack (w : Byte) (o : BitOrder) (v : Word) : Statement (.pack w o v) :=
  of_row (ra := 0) (rb := 0xFFFE) (ri := 0) (by decide +kernel) (by simp) (by cases o <;> decide) (by simp)

theorem unpack (w : Byte) (o : BitOrder) : Statement (.unpack w o) :=
  of_row (ra := 0) (rb := 0xFFFE) (ri := 0xFFFFFFFF) (by decide +kernel) (by simp) (by cases o <;> decide) (by simp)

theorem bbClr : Statement .bbClr :=
  of_row (ra := 0xFF) (rb := 0xFFFF) (ri := 0xFFFFFFFF) (by decide +kernel) (by simp) (by simp) (by simp)

theorem maskPack : Statement .maskPack :=
  of_row (ra := 0xFF) (rb := 0xFFFF) (ri := 0xFFFFFFFF) (by decide +kernel) (by simp) (by simp) (by simp)

theorem cfgClr : Statement .cfgClr :=
  of_row (ra := 0xFF) (rb := 0xFFFF) (ri := 0xFFFFFFFF) (by decide +kernel) (by simp) (by simp) (by simp)

theorem cfgSet (half : Half) (key : Byte) (value : Word) : Statement (.cfgSet half key value) :=
  of_row (ra := 0) (rb := 0xFFFE) (ri := 0) (by decide +kernel) (by simp) (by cases half <;> decide) (by simp)

theorem maskPut (c : Byte) : Statement (.maskPut c) :=
  of_row (ra := 0) (rb := 0xFFFF) (ri := 0xFFFFFFFF) (by decide +kernel) (by simp) (by simp) (by simp)

theorem maskNone : Statement .maskNone :=
  of_row (ra := 0xFF) (rb := 0xFFFF) (ri := 0xFFFFFFFF) (by decide +kernel) (by simp) (by simp) (by simp)

theorem cfgEncode : Statement .cfgEncode :=
  of_row (ra := 0xFF) (rb := 0xFFFF) (ri := 0xFFFFFFFF) (by decide +kernel) (by simp) (by simp) (by simp)

theorem sessInit (en : Bool) (maxruns : BitVec 16) (errmax : Word) : Statement (.sessInit en maxruns errmax) :=
  of_row (ra := 0xFE) (rb := 0) (ri := 0) (by decide +kernel) (by cases en <;> decide) (by simp) (by simp)

theorem asicInit : Statement .asicInit :=
  of_row (ra := 0xFF) (rb := 0xFFFF) (ri := 0xFFFFFFFF) (by decide +kernel) (by simp) (by simp) (by simp)

theorem vbSet (ch : Byte) (code : Word) : Statement (.vbSet ch code) :=
  of_row (ra := 0) (rb := 0xFFFF) (ri := 0) (by decide +kernel) (by simp) (by simp) (by simp)

theorem vbInit (slot : Byte) : Statement (.vbInit slot) :=
  of_row (ra := 0) (rb := 0xFFFF) (ri := 0xFFFFFFFF) (by decide +kernel) (by simp) (by simp) (by simp)

theorem regRead (addr : Byte) : Statement (.regRead addr) :=
  of_row (ra := 0) (rb := 0xFFFF) (ri := 0xFFFFFFFF) (by decide +kernel) (by simp) (by simp) (by simp)

theorem spiEnable : Statement .spiEnable :=
  of_row (ra := 0xFF) (rb := 0xFFFF) (ri := 0xFFFFFFFF) (by decide +kernel) (by simp) (by simp) (by simp)

theorem sessClose : Statement .sessClose :=
  of_row (ra := 0xFF) (rb := 0xFFFF) (ri := 0xFFFFFFFF) (by decide +kernel) (by simp) (by simp) (by simp)

theorem rdProbe : Statement .rdProbe :=
  of_row (ra := 0xFF) (rb := 0xFFFF) (ri := 0xFFFFFFFF) (by decide +kernel) (by simp) (by simp) (by simp)

theorem rdPoll (n : Word) : Statement (.rdPoll n) :=
  of_row (ra := 0xFF) (rb := 0xFFFF) (ri := 0) (by decide +kernel) (by simp) (by simp) (by simp)

theorem hitPop : Statement .hitPop :=
  of_row (ra := 0xFF) (rb := 0xFFFF) (ri := 0xFFFFFFFF) (by decide +kernel) (by simp) (by simp) (by simp)

theorem injSet (f : InjField) (v : Word) : Statement (.injSet f v) :=
  of_row (ra := 0xF8) (rb := 0xFFFF) (ri := 0) (by decide +kernel) (by cases f <;> decide) (by simp) (by simp)

theorem injInit : Statement .injInit :=
  of_row (ra := 0xFF) (rb := 0xFFFF) (ri := 0xFFFFFFFF) (by decide +kernel) (by simp) (by simp) (by simp)

theorem injStart : Statement .injStart :=
  of_row (ra := 0xFF) (rb := 0xFFFF) (ri := 0xFFFFFFFF) (by decide +kernel) (by simp) (by simp) (by simp)

theorem injStop : Statement .injStop :=
  of_row (ra := 0xFF) (rb := 0xFFFF) (ri := 0xFFFFFFFF) (by decide +kernel) (by simp) (by simp) (by simp)

theorem errRecord : Statement .errRecord :=
  of_row (ra := 0xFF) (rb := 0xFFFF) (ri := 0xFFFFFFFF) (by decide +kernel) (by simp) (by simp) (by simp)

theorem errExceeded : Statement .errExceeded :=
  of_row (ra := 0xFF) (rb := 0xFFFF) (ri := 0xFFFFFFFF) (by decide +kernel) (by simp) (by simp) (by simp)

end Sys2Proof.Laws.SelectsARow
end

