-- ==== Sys2Proof/Tests/Slice0.lean ====
section
/-! SUPPORT. The model's own tests: one or two a command, each one step on a small state, with the result taken from
spec/95_test_vectors.md (or the example of the rule named), and a witness for the hypotheses of every statement. -/

namespace Sys2Proof.Tests

open Sys2Proof.Machine

-- One theorem after another: each asks the kernel to evaluate, and waits for the ones before it.
set_option Elab.async false

/-! ### Helpers -/

/-- The state after a command; the state itself where the command does not answer a next state. -/
def after (i : Instr) (s : State) : State := match exec i s with | .next t => t | _ => s

/-- The state after a step. -/
def stepped (s : State) : State := match step s with | .next t => t | _ => s

/-- The reset state at a stage of an open session. -/
def openAt (st : Stage) : State := { State.reset with stage := st }

/-- A state whose next transport calls the environment answers as listed. -/
def answered (s : State) (tx rx : List TransportOutcome) : State := { s with txAnswers := tx, rxAnswers := rx }

/-- A state with the word on its port. -/
def withWord (s : State) (x : CommandWord) : State := { s with inputs := [.command x] }

/-- Bytes as the events of their sending. -/
def sent (bs : List Byte) : List Event := bs.map Event.txByte

/-- A mask text: the rows joined by newlines. -/
def maskText (rows : List (List Byte)) : List Byte := List.intercalate [0x0A#8] rows

/-- A row of `n` characters `0`. -/
def zeroRow (n : Nat) : List Byte := List.replicate n 0x30#8

/-- 35 rows of 35 characters `0` (V-CFG 5). -/
def zeroText : List Byte := maskText (List.replicate 35 (zeroRow 35))

/-- 34 rows of 35 characters `0` (V-CFG 6). -/
def shortText : List Byte := maskText (List.replicate 34 (zeroRow 35))

/-- Row 4 has 34 characters (V-CFG 7). -/
def raggedText : List Byte :=
  maskText (List.replicate 4 (zeroRow 35) ++ [zeroRow 34] ++ List.replicate 30 (zeroRow 35))

/-- The first character of row 2 is `x` (V-CFG 10). -/
def letterText : List Byte :=
  maskText (List.replicate 2 (zeroRow 35) ++ [0x78#8 :: zeroRow 34] ++ List.replicate 32 (zeroRow 35))

/-- A state with a mask text in its store. -/
def masked (s : State) (text : List Byte) : State := { s with maskPresent := true, mtxt := text }

/-- The configuration bytes of `LAYOUT_REF` with this threshold code and the analog pattern (V-CFG 1 to 3). -/
def configBytes (threshold : Byte) : List Byte := [0x28, 0x14, threshold] ++ List.replicate 153 0xFF ++ [0x80]

/-- "Fields A" of V-INJ. -/
def fieldsA : InjFields := ⟨300, 0, 3, 100, 300, 100, 128, 10⟩

/-- The stream of V-DEC 3: a good frame, one with column 35, a good frame. -/
def threeFrames : List Byte :=
  [0xAA, 0x03, 0x07, 0x0C, 0xBB, 0xAA, 0x23, 0x07, 0x0C, 0xBB, 0xAA, 0x01, 0x02, 0x03, 0xBB]

/-- A state in the hold of REG.READ (R153). -/
def heldState : State := { openAt .inited with busy := true }

/-! ### Well-formedness: an ill-formed term for each check -/

theorem test_wellFormed_pack : (Instr.pack 33 .msb 0).wellFormed Params.reference = false := by decide
theorem test_wellFormed_unpack : (Instr.unpack 33 .lsb).wellFormed Params.reference = false := by decide
theorem test_wellFormed_widest : (Instr.pack 32 .msb 0).wellFormed Params.reference = true := by decide
theorem test_params_reference_wf : Params.reference.wf = true := by decide +kernel

/-! ### Decoding: a word for every command, written out from R81 to R83 and spec/95_test_vectors.md -/

theorem test_decode_codec :
    decode 0x0103000100000006#64 = .ok (.pack 3 .msb 6) ∧ decode 0x01200000FFFFFFFF#64 = .ok (.pack 32 .lsb 0xFFFFFFFF) ∧
    decode 0x0203000100000000#64 = .ok (.unpack 3 .msb) ∧ decode 0x0300000000000000#64 = .ok .bbClr ∧
    decode 0x0400000000000000#64 = .ok .maskPack := by decide +kernel

theorem test_decode_config :
    decode 0x1000000000000000#64 = .ok .cfgClr ∧ decode 0x1102000100000000#64 = .ok (.cfgSet .bias 2 0) ∧
    decode 0x1100000000000100#64 = .ok (.cfgSet .dac 0 256) ∧ decode 0x1231000000000000#64 = .ok (.maskPut 0x31) ∧
    decode 0x1300000000000000#64 = .ok .maskNone ∧ decode 0x1400000000000000#64 = .ok .cfgEncode := by
  decide +kernel

theorem test_decode_registers :
    decode 0x2000000000000002#64 = .ok (.sessInit false 0 2) ∧ decode 0x2001000300000000#64 = .ok (.sessInit true 3 0) ∧
    decode 0x2100000000000000#64 = .ok .asicInit ∧ decode 0x2207000000003FFF#64 = .ok (.vbSet 7 16383) ∧
    decode 0x2304000000000000#64 = .ok (.vbInit 4) ∧ decode 0x2446000000000000#64 = .ok (.regRead 0x46) ∧
    decode 0x2500000000000000#64 = .ok .spiEnable ∧ decode 0x2600000000000000#64 = .ok .sessClose := by
  decide +kernel

theorem test_decode_readout :
    decode 0x3000000000000000#64 = .ok .rdProbe ∧ decode 0x3100000000000003#64 = .ok (.rdPoll 3) ∧
    decode 0x3200000000000000#64 = .ok .hitPop := by decide +kernel

theorem test_decode_injection :
    decode 0x4004000000011170#64 = .ok (.injSet .clkdiv 70000) ∧ decode 0x400700000000000A#64 = .ok (.injSet .cycles 10) ∧
    decode 0x4100000000000000#64 = .ok .injInit ∧ decode 0x4200000000000000#64 = .ok .injStart ∧
    decode 0x4300000000000000#64 = .ok .injStop := by decide +kernel

theorem test_decode_budget :
    decode 0x5000000000000000#64 = .ok .errRecord ∧ decode 0x5100000000000000#64 = .ok .errExceeded := by
  decide +kernel

/-- V-ENC 1 to 8: the words that are no command. -/
theorem test_decode_refuses :
    decode 0x0000000000000000#64 = .error .unknownOpcode ∧ decode 0x0500000000000000#64 = .error .unknownOpcode ∧
    decode 0xFF00000000000000#64 = .error .unknownOpcode ∧ decode 0x0108000200000003#64 = .error .reservedBit ∧
    decode 0x0208000100000001#64 = .error .reservedBit ∧ decode 0x0308000000000000#64 = .error .reservedBit ∧
    decode 0x2002000000000000#64 = .error .reservedBit ∧ decode 0x4008000000000000#64 = .error .reservedBit := by
  decide +kernel

/-- A table word is read from its low bits, and the next step runs it (V-ENC 10: RD.POLL at stage 0). -/
theorem test_table_word :
    decodeTableWord 64 0x3100000000000040 = some (.rdPoll 64) ∧
    (stepped (State.reset.withFetchWord 64 0x3100000000000040)).status = .stageError := by decide +kernel

/-- V-ENC 9 and 11, through the port. -/
theorem test_port_refuses :
    ((stepped (withWord State.reset 0x0121000100000000#64)).status,
      (stepped (withWord State.reset 0x0121000100000000#64)).errInfo) = (.illegalCommand, 2) ∧
    ((stepped (withWord State.reset 0x3101000000000040#64)).status,
      (stepped (withWord State.reset 0x3101000000000040#64)).errInfo) = (.illegalCommand, 1) := by decide +kernel

/-- The assembler: lines of spec/95_test_vectors.md, and a pseudo-instruction of R89. -/
theorem test_assemble :
    (assemble layoutRef ⟨"PACK", [.num 3, .num 8, .name "msb"]⟩).map encode = some 0x0108000100000003#64 ∧
    (assemble layoutRef ⟨"CFG.SET", [.name "dac", .name "thresholdDAC", .num 200]⟩).map encode =
      some 0x11000000000000C8#64 ∧
    (assemble layoutRef ⟨"INJ.SET", [.name "period", .num (-1)]⟩).map encode = some 0x40030000FFFFFFFF#64 ∧
    (Pseudo.encodeUnmasked [(.name "threshold", 5)] []).expand layoutRef =
      some [.cfgClr, .cfgSet .dac 0 5, .maskNone, .cfgEncode] := by decide +kernel

/-! ### BitField Codec (V-COD) -/

/-- V-COD 1, 2, 7. -/
theorem test_pack :
    (after (.pack 3 .msb 6) State.reset).bb = [true, true, false] ∧
    (after (.pack 3 .lsb 6) State.reset).bb = [false, true, true] ∧
    (after (.pack 14 .msb 1000) State.reset).bb =
      [false, false, false, false, true, true, true, true, true, false, true, false, false, false] := by
  decide +kernel

/-- V-COD 16, 17, 18: a full buffer, OverflowError before BufferError, the last free bit. -/
theorem test_pack_full :
    (after (.pack 1 .msb 1) { State.reset with bb := zeros 2048 }).status = .bufferError ∧
    (after (.pack 1 .msb 2) { State.reset with bb := zeros 2048 }).status = .overflowError ∧
    (after (.pack 1 .msb 1) { State.reset with bb := zeros 2047 }).bb.length = 2048 := by decide +kernel

/-- V-COD 12: the two orders read the same eight bits. -/
theorem test_unpack :
    (after (.unpack 8 .msb) { State.reset with bb := [true, false, true, true, true, false, false, true] }).r.r0 = 185 ∧
    (after (.unpack 8 .lsb) { State.reset with bb := [true, false, true, true, true, false, false, true] }).r.r0 =
      157 := by decide +kernel

/-- V-COD 9, 15: width 0, and too few bits. -/
theorem test_unpack_edges :
    (after (.unpack 0 .msb) { State.reset with r := ⟨5, 0, 0, 0, 0⟩ }).r.r0 = 0 ∧
    (after (.unpack 8 .msb) { State.reset with bb := [true, true, false] }).bb = [true, true, false] ∧
    (after (.unpack 8 .msb) { State.reset with bb := [true, true, false] }).status = .bufferError := by
  decide +kernel

/-- V-COD 23. -/
theorem test_bbClr : (after .bbClr { State.reset with bb := [true, true, false] }).bb = [] := by decide +kernel

/-- V-COD 19, 20. -/
theorem test_maskPack :
    (after .maskPack State.reset).bb = ones 1225 ∧
    (after .maskPack { State.reset with bb := ones 1225 }).status = .bufferError := by decide +kernel

/-- V-COD 22. -/
theorem test_maskPack_shape :
    ((after .maskPack (masked State.reset [0x31#8])).status, (after .maskPack (masked State.reset [0x31#8])).errInfo) =
      (.maskShapeError, 0x0101) := by decide +kernel

/-! ### Config Encoder (V-CFG) -/

/-- V-CFG 15. -/
theorem test_cfgClr : (after .cfgClr { State.reset with ovrDac := [some 200] }).ovrDac = [none] := by decide +kernel

/-- V-CFG 4, 11, 12. -/
theorem test_cfgSet :
    (after (.cfgSet .bias 1 7) State.reset).ovrBias = [none, some 7] ∧
    (after (.cfgSet .bias 1 7) State.reset).ovrDac = [none] ∧
    ((after (.cfgSet .dac 1 1) State.reset).status, (after (.cfgSet .dac 1 1) State.reset).errInfo) =
      (.configKeyError, 1) ∧
    ((after (.cfgSet .dac 0 256) State.reset).status, (after (.cfgSet .dac 0 256) State.reset).errInfo) =
      (.overflowError, 256) := by decide +kernel

/-- The example of R132. -/
theorem test_maskPut :
    (after (.maskPut 0x31) State.reset).mtxt = [0x31#8] ∧ (after (.maskPut 0x31) State.reset).maskPresent = true := by
  decide +kernel

/-- V-CFG 18. -/
theorem test_maskNone : (after .maskNone (masked State.reset [0x30#8])).mtxt = [] := by decide +kernel

/-- V-CFG 1 and 4. -/
theorem test_cfgEncode :
    tobytes (after .cfgEncode State.reset).cfg = configBytes 0x64 ∧
    tobytes (after .cfgEncode { State.reset with ovrBias := [none, some 7], ovrDac := [some 200] }).cfg =
      [0x28, 0x07, 0xC8] ++ List.replicate 153 0xFF ++ [0x80] := by decide +kernel

/-- V-CFG 5 (with and without the trailing newline), 6, 7 and 10. -/
theorem test_cfgEncode_masks :
    tobytes (after .cfgEncode (masked State.reset zeroText)).cfg =
      [0x28, 0x14, 0x64] ++ List.replicate 154 0x00 ∧
    parseMask (zeroText ++ [0x0A#8]) = parseMask zeroText ∧
    (after .cfgEncode (masked State.reset shortText)).errInfo = 0x0122 ∧
    (after .cfgEncode (masked State.reset raggedText)).errInfo = 0x0204 ∧
    (after .cfgEncode (masked State.reset letterText)).errInfo = 0x0302 := by decide +kernel

/-! ### Register Protocol (V-REG) -/

/-- V-REG 2. -/
theorem test_sessInit :
    (after (.sessInit true 3 0) State.reset).stage = .inited ∧ (after (.sessInit true 3 0) State.reset).maxRuns = 3 ∧
    (after (.sessInit true 3 0) State.reset).maxRunsEn = true := by decide +kernel

/-- V-REG 18. -/
theorem test_sessInit_restart :
    let s := { openAt .closed with
      termCause := .sessClose, injState := .injecting, injEn := true, spiEn := true, rxq := [0xAA#8] }
    (after (.sessInit false 0 0) s).out = [.injEn false, .spiEn false] ∧
    (after (.sessInit false 0 0) s).rxq = [0xAA#8] ∧ (after (.sessInit false 0 0) s).termCause = .notTerminated := by
  decide +kernel

/-- V-REG 3. -/
theorem test_asicInit :
    (after .asicInit (answered (openAt .inited) [.ok] [])).out =
      sent (configBytes 0x64) ++ [.latch .asicConfig 0 true, .latch .asicConfig 0 false] := by decide +kernel

/-- V-REG 4. -/
theorem test_asicInit_fails :
    let t := after .asicInit (answered (openAt .inited) [.fail 2] [])
    t.out = sent [0x28, 0x14] ∧ t.status = .transportError ∧ t.stage = .inited ∧ t.cfgValid = true := by
  decide +kernel

/-- V-REG 6, 9, 10. -/
theorem test_vbSet :
    (after (.vbSet 2 1000) State.reset).vbCode = [0, 0, 1000, 0, 0, 0, 0, 0] ∧
    (after (.vbSet 8 0) State.reset).status = .configKeyError ∧
    (after (.vbSet 0 16384) State.reset).status = .overflowError := by decide +kernel

/-- V-REG 7. -/
theorem test_vbInit :
    (after (.vbInit 0) (answered { openAt .asicDone with vbCode := [1, 2, 3, 4, 5, 6, 7, 8] } [.ok] [])).out =
      sent [0x00, 0x04, 0x00, 0x20, 0x00, 0xC0, 0x04, 0x00, 0x14, 0x00, 0x60, 0x01, 0xC0, 0x08] ++
        [.latch .voltageBoard 0 true, .latch .voltageBoard 0 false] := by decide +kernel

/-- V-REG 8. -/
theorem test_vbInit_slot :
    (after (.vbInit 8) (openAt .asicDone)).status = .configKeyError ∧
    (after (.vbInit 8) (openAt .asicDone)).stage = .asicDone := by decide +kernel

/-- V-REG 12. -/
theorem test_regRead :
    let t := after (.regRead 0x46) (answered { openAt .inited with rxq := [0x11#8, 0x22#8] } [.ok] [.ok])
    t.r.r0 = 0x11 ∧ t.rxq = [0x22#8] ∧ t.busy = false ∧ t.out = sent [0x46] := by decide +kernel

/-- V-REG 11: the hold, and the step that ends it once the byte is there. -/
theorem test_regRead_hold :
    (after (.regRead 0x46) (answered (openAt .inited) [.ok] [])).busy = true ∧
    (stepped { answered heldState [] [.ok] with rxq := [0x5A#8] }).r.r0 = 0x5A ∧
    (stepped { answered heldState [] [.ok] with rxq := [0x5A#8] }).busy = false := by decide +kernel

/-- V-REG 15, 16. -/
theorem test_spiEnable :
    (after .spiEnable (openAt .injDone)).out = [.spiEn true] ∧ (after .spiEnable (openAt .injDone)).stage = .readout ∧
    (after .spiEnable (openAt .voltDone)).errInfo = 3 := by decide +kernel

/-- V-REG 17. -/
theorem test_sessClose :
    let t := after .sessClose { openAt .readout with injState := .injecting, injEn := true }
    t.stage = .closed ∧ t.termCause = .sessClose ∧ t.injEn = true ∧ t.out = [] := by decide +kernel

/-! ### Readout Decoder (V-DEC) -/

/-- The RD.PROBE vectors. -/
theorem test_rdProbe :
    (after .rdProbe { openAt .readout with r := ⟨7, 0, 0, 0, 0⟩ }).r.r0 = 0 ∧
    (after .rdProbe { openAt .readout with rxq := [0x00#8] }).r.r0 = 1 := by decide +kernel

/-- V-DEC 3. -/
theorem test_rdPoll :
    let t := after (.rdPoll 64) (answered { openAt .readout with errMax := 2, rxq := threeFrames } [] [.ok])
    t.r = ⟨15, 2, 1, 0, 0⟩ ∧ t.hitq = [⟨3, 7, 0, 12, true⟩, ⟨1, 2, 0, 3, true⟩] ∧ t.errCount = 1 ∧
    t.lastDecCause = .column ∧ t.stage = .readout := by decide +kernel

/-- V-DEC 20, and V-ERR 5. -/
theorem test_rdPoll_ends :
    (after (.rdPoll 64) (answered { openAt .readout with rxq := [0xAA, 0x03, 0x07, 0x0C, 0xBB] } [] [.fail 2])).rxq =
      [0x07, 0x0C, 0xBB] ∧
    (after (.rdPoll 64) (answered { openAt .readout with rxq := threeFrames } [] [.ok])).termCause =
      .budgetExceeded := by decide +kernel

/-- The HIT.POP vectors. -/
theorem test_hitPop :
    (after .hitPop { State.reset with hitq := [⟨3, 7, 0, 12, true⟩] }).r = ⟨3, 7, 0, 12, 1⟩ ∧
    (after .hitPop State.reset).status = .bufferError := by decide +kernel

/-! ### Injection Controller (V-INJ) -/

/-- V-INJ 5, the staging half. -/
theorem test_injSet : (after (.injSet .period 0xFFFFFFFF) State.reset).injF.period = 0xFFFFFFFF := by decide +kernel

/-- V-INJ 1. -/
theorem test_injInit :
    (after .injInit (answered { openAt .voltDone with injF := fieldsA } [.ok] [])).out =
      sent [0x04, 0xB0, 0x00, 0x00] ++ [.latch .injectionDac 3 true, .latch .injectionDac 3 false] := by
  decide +kernel

/-- V-INJ 8. -/
theorem test_injInit_check :
    let t := after .injInit { openAt .voltDone with injF := { fieldsA with amplitude := 16384, period := 0xFFFFFFFF } }
    t.status = .injectionConfigError ∧ t.errInfo = 0 ∧ t.stage = .voltDone := by decide +kernel

/-- V-INJ 3. -/
theorem test_injStart :
    let t := after .injStart (answered { openAt .injDone with injF := fieldsA } [.ok] [])
    t.out = sent [0x64, 0x01, 0x2C, 0x00, 0x64, 0x80, 0x00, 0x0A] ++
      [.latch .injectionTiming 3 true, .latch .injectionTiming 3 false, .injEn true] ∧
    t.injState = .injecting ∧ t.injEn = true := by decide +kernel

/-- V-INJ 5, 12: a negative period from Idle and while Injecting. -/
theorem test_injStart_check :
    (after .injStart { openAt .injDone with injF := { fieldsA with period := 0xFFFFFFFF } }).errInfo = 3 ∧
    (after .injStart { openAt .injDone with
      injF := { fieldsA with period := 0xFFFFFFFF }, injState := .injecting, injEn := true }).status = .ok := by
  decide +kernel

/-- V-INJ 9, 10. -/
theorem test_injStop :
    (after .injStop { openAt .injDone with injState := .injecting, injEn := true }).out = [.injEn false] ∧
    (after .injStop (openAt .injDone)).out = [] := by decide +kernel

/-! ### Error Budget (V-ERR) -/

/-- V-ERR 2, 9. -/
theorem test_errRecord :
    (after .errRecord (openAt .inited)).termCause = .budgetExceeded ∧
    (after .errRecord { openAt .inited with errCount := 0xFFFFFFFF, errMax := 0xFFFFFFFF }).r.r0 = 0xFFFFFFFF ∧
    (after .errRecord { openAt .inited with errCount := 0xFFFFFFFF, errMax := 0xFFFFFFFF }).stage = .inited := by
  decide +kernel

/-- V-ERR 3, 4. -/
theorem test_errExceeded :
    (after .errExceeded { State.reset with errCount := 3, errMax := 2 }).r.r0 = 1 ∧
    (after .errExceeded { State.reset with errCount := 2, errMax := 2 }).r.r0 = 0 := by decide +kernel

/-! ### Witnesses: for each statement with hypotheses, states and operands that meet them, clause by clause, at the
edge of the clause's range -/

/-- A command answers a next state. -/
def answersNext (i : Instr) (s : State) : Bool := match exec i s with | .next _ => true | _ => false

theorem exec_eq_after {i : Instr} {s : State} (h : answersNext i s = true) : exec i s = .next (after i s) := by
  unfold answersNext at h; unfold after; split at h <;> simp_all

/-- A step answers a next state. -/
def stepsNext (s : State) : Bool := match step s with | .next _ => true | _ => false

theorem step_eq_stepped {s : State} (h : stepsNext s = true) : step s = .next (stepped s) := by
  unfold stepsNext at h; unfold stepped; split at h <;> simp_all

/-- The step of R20 answers this state of the block. -/
def stepsWithTo (p : Params) (m : Option Input) (tx rx : TransportOutcome) (a b : ArchState) : Bool :=
  match a.stepWith p m tx rx with | .next c => decide (c = b) | _ => false

theorem stepWith_eq_next_of {p : Params} {m : Option Input} {tx rx : TransportOutcome} {a b : ArchState}
    (h : stepsWithTo p m tx rx a b = true) : a.stepWith p m tx rx = .next b := by
  unfold stepsWithTo at h; split at h <;> simp_all

/-- A state in a running readout, with a record in HITQ. -/
def readoutState : State :=
  { openAt .readout with spiEn := true, hitq := [⟨34, 34, 0, 255, true⟩], errMax := 2 }

/-- The stages around an operation: `s` with its transport writes answered `ok`, or failed after `k` bytes. -/
def writeOk (s : State) : State := answered s [.ok] []
def writeFails (s : State) (k : Nat) : State := answered s [.fail k] []

theorem witness_EncodeInvertsDecode : decode 0x0108000100000003#64 = .ok (.pack 8 .msb 3) := by decide +kernel

theorem witness_DecodesIffOneTableRowSelects :
    (0x0100000000000000#64, 0xFF00FFFE00000000#64) ∈ opcodeRows ∧
    0x0108000100000003#64 &&& 0xFF00FFFE00000000#64 = 0x0100000000000000#64 := by
  constructor
  · simp [opcodeRows]
  · decide

theorem witness_IllegalWordWritesOnlyStatus :
    let s := withWord State.reset
    ((s 0).params.wf = true ∧ (s 0).busy = false ∧ (s 0).inputs = [.command 0]) ∧
    (∀ row ∈ opcodeRows, (0x5200000000000000#64).extractLsb' 56 8 ≠ row.1.extractLsb' 56 8) ∧
    ((0x5000000000000000#64, 0xFFFFFFFFFFFFFFFF#64) ∈ opcodeRows ∧
      (0x5000000000000001#64).extractLsb' 56 8 = (0x5000000000000000#64).extractLsb' 56 8 ∧
      0x5000000000000001#64 &&& 0xFFFFFFFFFFFFFFFF#64 ≠ 0x5000000000000000#64) ∧
    (0x0121000100000000#64 &&& 0xFF00FFFE00000000#64 = 0x0100000000000000#64 ∧
      Params.reference.wMax < ((0x0121000100000000#64).extractLsb' 48 8).toNat) ∧
    (0x0221000100000000#64 &&& 0xFF00FFFEFFFFFFFF#64 = 0x0200000000000000#64 ∧
      Params.reference.wMax < ((0x0221000100000000#64).extractLsb' 48 8).toNat) := by
  refine ⟨by decide +kernel, by simp [opcodeRows], ⟨by simp [opcodeRows], by decide, by decide⟩, by decide, by decide⟩

theorem witness_StepRunsTheDecodedCommand :
    let s := withWord State.reset 0x3000000000000000#64
    s.params.wf = true ∧ s.busy = false ∧ s.inputs = .command 0x3000000000000000#64 :: [] ∧
    decode 0x3000000000000000#64 = .ok .rdProbe := by decide +kernel

theorem witness_BusyPortKeepsItsCommands :
    let s := { heldState with inputs := [.command 0x0300000000000000#64, .rxArrive 0x5A#8] }
    s.busy = true ∧ step s = .next (stepped s) ∧ (stepped s).inputs = [.command 0x0300000000000000#64] :=
  ⟨by decide +kernel, step_eq_stepped (by decide +kernel), by decide +kernel⟩

theorem witness_PackAndUnpackAreTheirFormulas : 2 ^ 3 ≤ 8 ∧ 7 < 2 ^ 3 ∧ 2 < 3 ∧ 0 < 2 ^ 0 ∧ 2 ^ 0 ≤ 1 := by decide

theorem witness_PackUnpackInverseLaws : 7 < 2 ^ 3 ∧ 0 < 2 ^ 0 ∧ 2 < 3 := by decide

theorem witness_MaskRegionIsPatternOrRowMajorGrid :
    (List.replicate 35 (zeros 35)).length = 35 ∧ (∀ row ∈ List.replicate 35 (zeros 35), row.length = 35) ∧
    parseMask zeroText = .ok (List.replicate 35 (zeros 35)) ∧ parseMask [] = .error 0x0101 := by
  refine ⟨by decide +kernel, ?_, by decide +kernel, by decide +kernel⟩
  intro row h
  rw [List.eq_of_mem_replicate h, List.length_replicate]

theorem witness_BytePackingPlacesEachBit :
    1 < ((ones 9).length + 7) / 8 ∧ 7 < 8 ∧ 3 < [0x00#8, 0xFF#8, 0x00#8, 0xFF#8].length ∧
    [0x00#8, 0xFF#8, 0x00#8, 0xFF#8].length ≤ 4 := by decide

theorem witness_ParseMaskReportsTheFirstReason :
    (maskPieces shortText).length ≠ 35 ∧
    ((maskPieces raggedText).length = 35 ∧
      (∀ k, k < 4 → ((maskPieces raggedText).getD k []).length = 35) ∧
      ((maskPieces raggedText).getD 4 []).length ≠ 35) ∧
    ((maskPieces letterText).length = 35 ∧ (∀ l ∈ maskPieces letterText, l.length = 35) ∧
      (∀ k, k < 2 → ∀ c ∈ (maskPieces letterText).getD k [], c = 0x30#8 ∨ c = 0x31#8) ∧
      (∃ c ∈ (maskPieces letterText).getD 2 [], c ≠ 0x30#8 ∧ c ≠ 0x31#8)) := by decide +kernel

/-- The result of `encode`, where it has one. -/
def encoded (ob od : List (Option Nat)) : Bits :=
  match encodeConfig Params.reference ob od false [] with | .ok s => s | .error _ => []

theorem witness_EncodeFillsEverySlot :
    let p := Params.reference
    p.wf = true ∧ overridesFit p.layout.bias [none, some 255] = true ∧ overridesFit p.layout.dac [some 0] = true ∧
    maskRegion p false [] = .ok (ones 1225) ∧ maskRegion p true [] = .error 0x0101 ∧
    p.layout.bias[1]? = some ⟨["vcasn"], 8, 8, 20⟩ ∧
    p.layout.dac[0]? = some ⟨["threshold", "thresholdDAC"], 16, 8, 100⟩ := by
  refine ⟨by decide +kernel, by decide +kernel, by decide +kernel, rfl, rfl, by decide +kernel, by decide +kernel⟩

theorem witness_DefaultBitsEncodeNoOverrideAndNoMask : Params.reference.wf = true := by decide +kernel

theorem witness_SlotReadAsTwoFieldsSplitsTheValue : 255 < 2 ^ (3 + 5) ∧ 0 < 2 ^ (0 + 0) := by decide

theorem witness_OverrideChangesOnlyItsSlot :
    let p := Params.reference
    let rd : LayoutRow := ⟨["threshold", "thresholdDAC"], 16, 8, 100⟩
    let rb : LayoutRow := ⟨["vcasn"], 8, 8, 20⟩
    (p.wf = true ∧ overridesFit p.layout.bias [none, none] = true ∧ overridesFit p.layout.dac [none] = true ∧
      255 < 2 ^ rd.width ∧ 255 < 2 ^ rb.width) ∧
    encodeConfig p [none, none] [none] false [] = .ok (encoded [none, none] [none]) ∧
    (p.layout.dac[0]? = some rd ∧
      encodeConfig p [none, none] ([none].set 0 (some 255)) false [] = .ok (encoded [none, none] [some 255]) ∧
      15 < rd.offset ∧ rd.offset + rd.width ≤ 24) ∧
    (p.layout.bias[1]? = some rb ∧
      encodeConfig p ([none, none].set 1 (some 255)) [none] false [] = .ok (encoded [none, some 255] [none]) ∧
      7 < rb.offset ∧ rb.offset + rb.width ≤ 16) := by
  refine ⟨by decide +kernel, rfl, ⟨by decide +kernel, rfl, by decide, by decide⟩,
    ⟨by decide +kernel, rfl, by decide, by decide⟩⟩

theorem witness_PackCommandRule :
    let p := Params.reference
    p.wMax < (33#8 : Byte).toNat ∧ ((3#8 : Byte).toNat ≤ p.wMax ∧ 2 ^ (3#8 : Byte).toNat ≤ (8#32 : Word).toNat) ∧
    ((7#32 : Word).toNat < 2 ^ (3#8 : Byte).toNat ∧ p.bbCap < (zeros 2046).length + (3#8 : Byte).toNat) ∧
    ((32#8 : Byte).toNat ≤ p.wMax ∧ (0xFFFFFFFF#32 : Word).toNat < 2 ^ (32#8 : Byte).toNat ∧
      (zeros 2016).length + (32#8 : Byte).toNat ≤ p.bbCap) := by decide +kernel

theorem witness_UnpackCommandRule :
    let p := Params.reference
    p.wMax < (33#8 : Byte).toNat ∧ ((3#8 : Byte).toNat ≤ p.wMax ∧ (zeros 2).length < (3#8 : Byte).toNat) ∧
    ((32#8 : Byte).toNat ≤ p.wMax ∧ (32#8 : Byte).toNat ≤ (zeros 32).length) := by decide +kernel

theorem witness_BbClrAndMaskPackCommandRules :
    let p := Params.reference
    maskRegion p true [] = .error 0x0101 ∧ maskRegion p false [] = .ok (ones 1225) ∧
    p.bbCap < (zeros 824).length + 1225 ∧ (zeros 823).length + 1225 ≤ p.bbCap :=
  ⟨rfl, rfl, by decide +kernel, by decide +kernel⟩

theorem witness_PackThenUnpackReturnsTheValue :
    State.reset.params.wf = true ∧ (32#8 : Byte).toNat ≤ State.reset.params.wMax ∧
    (0x80000000#32 : Word).toNat < 2 ^ (32#8 : Byte).toNat ∧ State.reset.bb = [] ∧
    exec (.pack 32 .msb 0x80000000) State.reset = .next (after (.pack 32 .msb 0x80000000) State.reset) :=
  ⟨by decide +kernel, by decide +kernel, by decide +kernel, by decide +kernel, exec_eq_after (by decide +kernel)⟩

theorem witness_StagingCommandRules :
    (List.replicate 1260 0x30#8).length < 1261 ∧ 1261 ≤ (List.replicate 1261 0x30#8).length ∧
    parseMask (zeroText ++ [0x0A#8]) = .ok (List.replicate 35 (zeros 35)) :=
  ⟨by decide +kernel, by decide +kernel, by decide +kernel⟩

theorem witness_CfgSetCommandRule :
    let l := Params.reference.layout
    l.dac.length ≤ (1#8 : Byte).toNat ∧ l.bias.length ≤ (2#8 : Byte).toNat ∧
    (l.dac[(0#8 : Byte).toNat]? = some ⟨["threshold", "thresholdDAC"], 16, 8, 100⟩ ∧
      l.bias[(1#8 : Byte).toNat]? = some ⟨["vcasn"], 8, 8, 20⟩) ∧
    2 ^ 8 ≤ (256#32 : Word).toNat ∧ (255#32 : Word).toNat < 2 ^ 8 := by decide +kernel

theorem witness_CfgEncodeCommandRule :
    encodeConfig Params.reference [none, none] [none] true [] = .error 0x0101 ∧
    encodeConfig Params.reference [none, none] [none] false [] = .ok (encoded [none, none] [none]) := ⟨rfl, rfl⟩

theorem witness_CfgValidIsSetAndClearedAsListed :
    let s := { State.reset with cfgValid := true }
    (exec .cfgEncode State.reset = .next (after .cfgEncode State.reset) ∧ State.reset.cfgValid = false ∧
      (after .cfgEncode State.reset).cfgValid = true) ∧
    (exec (.cfgSet .dac 0 5) s = .next (after (.cfgSet .dac 0 5) s) ∧ s.cfgValid = true ∧
      (after (.cfgSet .dac 0 5) s).cfgValid = false) :=
  ⟨⟨exec_eq_after (by decide +kernel), by decide +kernel, by decide +kernel⟩,
    exec_eq_after (by decide +kernel), by decide +kernel, by decide +kernel⟩

theorem witness_TransportCallsSucceedOrLeaveAPrefix :
    let s := { State.reset with rxq := [0x11#8, 0x22#8] }
    (writeOk s).answerTx = (.ok, s) ∧ (writeFails s 2).answerTx = (.fail 2, s) ∧ 2 ≤ [0x11#8, 0x22#8].length ∧
    2 ≤ s.rxq.length ∧ (answered s [] [.ok]).answerRx = (.ok, s) ∧ (answered s [] [.fail 2]).answerRx = (.fail 2, s) := by
  decide +kernel

theorem witness_SrWritePulsesTheLatchOnlyAfterAllBytes :
    (writeOk State.reset).answerTx = (.ok, State.reset) ∧
    (writeFails State.reset 0).answerTx = (.fail 0, State.reset) := by decide +kernel

theorem witness_AsicInitCommandRule :
    let s := openAt .inited
    State.reset.stage ≠ .inited ∧ (s.stage = .inited ∧ (masked s []).encoded = .error 0x0101) ∧
    (s.encoded = .ok (encoded [none, none] [none]) ∧ (writeFails s 157).answerTx = (.fail 157, s)) ∧
    (writeOk s).answerTx = (.ok, s) :=
  ⟨by decide, ⟨by decide +kernel, rfl⟩, ⟨rfl, by decide +kernel⟩, by decide +kernel⟩

theorem witness_VbSetCommandRule :
    let p := Params.reference
    p.vbNdac ≤ (8#8 : Byte).toNat ∧ (7#8 : Byte).toNat < p.vbNdac ∧ 2 ^ p.vbW ≤ (16384#32 : Word).toNat ∧
    (16383#32 : Word).toNat < 2 ^ p.vbW := by decide +kernel

theorem witness_VbInitCommandRule :
    let s := openAt .asicDone
    (openAt .voltDone).stage ≠ .asicDone ∧ s.stage = .asicDone ∧ s.params.nSlots ≤ (8#8 : Byte).toNat ∧
    (7#8 : Byte).toNat < s.params.nSlots ∧ (writeFails s 14).answerTx = (.fail 14, s) ∧
    (writeOk s).answerTx = (.ok, s) := by decide +kernel

theorem witness_RegReadCommandRule :
    let s := openAt .inited
    let full := { s with rxq := [0x5A#8] }
    (State.reset.stage = .reset ∧ (openAt .readout).stage = .readout ∧ (openAt .closed).stage = .closed) ∧
    (s.stage ≠ .reset ∧ s.stage ≠ .readout ∧ s.stage ≠ .closed) ∧
    (writeFails s 0).answerTx = (.fail 0, s) ∧ (writeFails s 1).answerTx = (.fail 1, s) ∧
    ((writeOk s).answerTx = (.ok, s) ∧ (writeOk s).rxq.length < (writeOk s).params.respLen) ∧
    ((answered full [.ok] [.ok]).answerTx = (.ok, answered full [] [.ok]) ∧
      full.params.respLen ≤ full.rxq.length ∧ (answered full [] [.ok]).answerRx = (.ok, full)) ∧
    ((answered full [.ok] [.fail 1]).answerTx = (.ok, answered full [] [.fail 1]) ∧
      (answered full [] [.fail 1]).answerRx = (.fail 1, full)) := by decide +kernel

theorem witness_HeldReadGoesOnAndEnds :
    let s := heldState
    let full := { s with rxq := [0x5A#8] }
    s.params.wf = true ∧ s.busy = true ∧
    (full.params.respLen ≤ full.rxq.length ∧ (answered full [] [.ok]).answerRx = (.ok, full) ∧
      (answered full [] [.fail 0]).answerRx = (.fail 0, full)) ∧
    s.rxq.length < s.params.respLen ∧
    nextMove [.command 0, .rxArrive 0x5A#8] = some (.rxArrive 0x5A#8, [.command 0]) ∧
    nextMove [.heldReadFails 0] = some (.heldReadFails 0, []) ∧ nextMove [.command 0] = none := by decide +kernel

theorem witness_SpiEnableAndSessCloseCommandRules :
    (openAt .voltDone).stage ≠ .injDone ∧ (openAt .injDone).stage = .injDone ∧ State.reset.stage = .reset ∧
    (openAt .closed).stage = .closed ∧ (openAt .readout).stage ≠ .reset ∧ (openAt .readout).stage ≠ .closed := by
  decide +kernel

/-- Framing by length alone (R166 with `has_start = 0` and `has_end = 0`). -/
def lengthFraming : Params :=
  { Params.reference with frame := { frameRef with hasStart := false, hasEnd := false } }

theorem witness_DecodeByteRules :
    let s := openAt .readout
    let reading := fun fbuf => { s with decState := .readingFrame, fbuf := fbuf }
    (s.decState = .awaitingSync ∧ s.params.frame.hasStart = true ∧ s.params.frame.start = 0xAA#8 ∧ s.skipping = false ∧
      { s with skipping := true }.skipping = true) ∧
    (lengthFraming.wf = true ∧ lengthFraming.frame.hasStart = false) ∧
    (reading [0x03, 0x07]).fbuf.length + 1 ≠ s.params.frame.bodyLen ∧
    (reading [0x03, 0x07, 0x0C]).fbuf.length + 1 = s.params.frame.bodyLen ∧
    frameCause s.params ([0x03, 0x07, 0x0C] ++ [0xBB]) = none ∧
    frameCause s.params ([0x03, 0x07, 0x0C] ++ [0xBC]) = some .endMarker := by decide +kernel

theorem witness_FrameValidationAndExtraction :
    let full := { readoutState with fbuf := [34, 34, 0xFF, 0xBB] }
    let bad := { readoutState with fbuf := [34, 35, 0xFF, 0xBB], errCount := 0xFFFFFFFF }
    lengthFraming.wf = true ∧ Params.reference.wf = true ∧ frameCause full.params full.fbuf = none ∧
    frameCause bad.params bad.fbuf = some .row ∧
    (0xFFFFFFFF#32 : Word).toNat = min (bad.errCount.toNat + 1) (2 ^ 32 - 1) := by
  decide +kernel

theorem witness_inv : readoutState.Inv where
  paramsWf := by decide +kernel
  bbWithinCap := by decide +kernel
  mtxtWithinCap := by decide +kernel
  hitqWithinCap := by decide +kernel
  fbufWithinBody := by decide +kernel
  absentMaskEmpty := by decide +kernel
  dacOverridesFit := by decide +kernel
  biasOverridesFit := by decide +kernel
  vbCodesCount := by decide +kernel
  vbCodesFit := by decide +kernel
  cfgLength := by decide +kernel
  cfgValidEncodes := fun h => absurd h (by decide +kernel)
  decoderBoundary := by decide +kernel
  injectionBoundary := by decide +kernel
  latchLow := by decide +kernel
  closedIffCause := by decide +kernel
  spiOnlyAfterEnable := by decide +kernel
  recordsSound := by
    intro h hm
    rw [show readoutState.hitq = [⟨34, 34, 0, 255, true⟩] from rfl, List.mem_singleton] at hm
    subst hm; exact ⟨by decide, by decide, rfl⟩
  busyOnlyInRead := by decide +kernel

theorem witness_DecoderResynchronises :
    readoutState.Inv ∧ readoutState.params.frame.hasStart = true ∧
    [0x00#8, 0x11#8, 0xBB#8, 0xAB#8].length = readoutState.params.frame.bodyLen ∧
    ∀ b ∈ [0x00#8, 0x11#8, 0xBB#8, 0xAB#8], b ≠ readoutState.params.frame.start :=
  ⟨witness_inv, by decide +kernel, by decide +kernel, by decide +kernel⟩

theorem witness_OneBadFrameCostsOneError :
    readoutState.Inv ∧
    (readoutState.decState = .awaitingSync ∧ readoutState.params.frame.hasStart = true ∧
      [0x22#8, 0x22#8, 0xFF#8, 0xBB#8].length = readoutState.params.frame.bodyLen ∧
      frameCause readoutState.params [0x22, 0x22, 0xFF, 0xBB] = none ∧
      frameCause readoutState.params [0x23, 0x07, 0x0C, 0xBB] = some .column) :=
  ⟨witness_inv, by decide +kernel⟩

theorem witness_RdProbeAndHitPopCommandRules :
    State.reset.stage = .reset ∧ (openAt .closed).stage = .closed ∧ (openAt .readout).stage ≠ .reset ∧
    (openAt .readout).stage ≠ .closed ∧ State.reset.hitq = [] ∧ readoutState.hitq = [⟨34, 34, 0, 255, true⟩] := by
  decide +kernel

theorem witness_RdPollCommandRule :
    let s := { openAt .readout with rxq := threeFrames }
    (openAt .injDone).stage ≠ .readout ∧ s.stage = .readout ∧
    (answered s [] [.fail 15]).answerRx = (.fail 15, s) ∧ (answered s [] [.ok]).answerRx = (.ok, s) ∧
    (decBytes threeFrames { s with rxq := [] } 0 0).2 = (2, 1) := by decide +kernel

theorem witness_PollCountsMatchTheDecoder : (decBytes threeFrames readoutState 0 0).2 = (2, 1) := by decide +kernel

theorem witness_InjSetAndInjStopCommandRules :
    ((openAt .voltDone).stage ≠ .injDone ∧ (openAt .voltDone).stage ≠ .readout ∧ (openAt .voltDone).stage ≠ .closed) ∧
    ((openAt .closed).stage = .closed ∧ { openAt .closed with injState := .injecting }.injState = .injecting) ∧
    (openAt .closed).injState ≠ .injecting := by decide +kernel

theorem witness_InjInitCommandRule :
    let s := openAt .voltDone
    (openAt .injDone).stage ≠ .voltDone ∧ s.stage = .voltDone ∧ s.injCheck = none ∧
    { s with injF := { fieldsA with position := 8 } }.injCheck = some .position ∧
    (writeFails s 4).answerTx = (.fail 4, s) ∧ (writeOk s).answerTx = (.ok, s) := by decide +kernel

theorem witness_InjStartCommandRule :
    let s := openAt .readout
    ((openAt .closed).stage ≠ .injDone ∧ (openAt .closed).stage ≠ .readout) ∧ s.stage = .readout ∧
    { s with injState := .injecting }.injState = .injecting ∧ s.injState ≠ .injecting ∧
    { s with injF := { fieldsA with period := 0xFFFFFFFF } }.injCheck = some .period ∧ s.injCheck = none ∧
    (writeFails s 8).answerTx = (.fail 8, s) ∧ (writeOk s).answerTx = (.ok, s) := by decide +kernel

theorem witness_InjStartTwiceEnablesOnce :
    exec .injStart (writeOk (openAt .injDone)) = .next (after .injStart (writeOk (openAt .injDone))) ∧
    (after .injStart (writeOk (openAt .injDone))).status = .ok :=
  ⟨exec_eq_after (by decide +kernel), by decide +kernel⟩

theorem witness_ErrorBudgetCommandRules :
    (State.reset.stage = .reset ∧ (openAt .closed).stage = .closed) ∧
    ((openAt .inited).stage ≠ .reset ∧ (openAt .inited).stage ≠ .closed) ∧
    (0xFFFFFFFF#32).toNat = min ((0xFFFFFFFE#32).toNat + 1) (2 ^ 32 - 1) ∧
    (0xFFFFFFFF#32).toNat = min ((0xFFFFFFFF#32).toNat + 1) (2 ^ 32 - 1) := by decide +kernel

theorem witness_OnlySessInitLowersTheErrorCount :
    exec .errRecord (openAt .inited) = .next (after .errRecord (openAt .inited)) ∧
    ∀ en m e, Instr.errRecord ≠ .sessInit en m e :=
  ⟨exec_eq_after (by decide +kernel), fun _ _ _ h => Instr.noConfusion h⟩

theorem witness_PreciseFaultsChangeOnlyStatus :
    State.reset.busy = false ∧ exec .hitPop State.reset = .next (after .hitPop State.reset) ∧
    (after .hitPop State.reset).busy = false ∧ (after .hitPop State.reset).status.precise = true :=
  ⟨by decide, exec_eq_after (by decide +kernel), by decide +kernel, by decide +kernel⟩

theorem witness_StageGateTable :
    State.reset.stage ∉ [Stage.inited] ∧ (openAt .inited).stage ∈ [Stage.inited] ∧
    (writeOk (openAt .inited)).busy = false ∧
    exec .asicInit (writeOk (openAt .inited)) = .next (after .asicInit (writeOk (openAt .inited))) ∧
    (after .asicInit (writeOk (openAt .inited))).busy = false :=
  ⟨by decide, by decide, by decide, exec_eq_after (by decide +kernel), by decide +kernel⟩

theorem witness_StageMovesOnlyAsListed :
    exec .sessClose (openAt .readout) = .next (after .sessClose (openAt .readout)) ∧
    (after .sessClose (openAt .readout)).stage ≠ (openAt .readout).stage :=
  ⟨exec_eq_after (by decide +kernel), by decide +kernel⟩

theorem witness_ResultRegistersChangeOnlyAsListed :
    exec .errRecord (openAt .inited) = .next (after .errRecord (openAt .inited)) ∧
    (after .errRecord (openAt .inited)).r ≠ (openAt .inited).r ∧ Instr.errRecord ≠ .hitPop ∧
    ∀ n, Instr.errRecord ≠ .rdPoll n :=
  ⟨exec_eq_after (by decide +kernel), by decide +kernel, by decide, fun _ h => Instr.noConfusion h⟩

theorem witness_OutIsHistoryAndFailedWritesPulseNothing :
    let s := writeFails (openAt .voltDone) 2
    s.busy = false ∧ exec .injInit s = .next (after .injInit s) ∧ (after .injInit s).busy = false ∧
    (after .injInit s).status = .transportError :=
  ⟨by decide, exec_eq_after (by decide +kernel), by decide +kernel, by decide +kernel⟩

theorem witness_InjectionAndReadoutAreIndependent :
    let s := answered readoutState [.ok] [.ok]
    exec .injStart s = .next (after .injStart s) ∧ exec .injStop s = .next (after .injStop s) ∧
    exec (.rdPoll 64) s = .next (after (.rdPoll 64) s) :=
  ⟨exec_eq_after (by decide +kernel), exec_eq_after (by decide +kernel), exec_eq_after (by decide +kernel)⟩

theorem witness_ResetPutsEveryElementAtItsValue : State.reset = State.reset ∨ ∃ p, State.reset = State.resetOf p :=
  .inl rfl

theorem witness_ResetInputAndArrivals :
    let s := { readoutState with inputs := [.reset, .rxArrive 0xAA#8] }
    let held := { heldState with inputs := [.command 0, .reset] }
    (s.params.wf = true ∧ s.busy = false ∧ s.inputs = .reset :: [.rxArrive 0xAA#8]) ∧
    (held.busy = true ∧ held.rxq.length < held.params.respLen ∧
      nextMove held.inputs = some (.reset, [.command 0])) ∧
    { readoutState with inputs := [.rxArrive 0xAA#8] }.inputs = .rxArrive 0xAA#8 :: [] := by decide +kernel

theorem witness_EveryStepKeepsTheInvariants : readoutState.Inv ∧ step readoutState = .next (stepped readoutState) :=
  ⟨witness_inv, step_eq_stepped (by decide +kernel)⟩

theorem witness_StepsExactlyWithWellFormedParameters :
    let s := { answered (openAt .inited) [.fail 2, .ok] [.ok] with inputs := [.command 0x2100000000000000#64] }
    (readoutState.params.wf = true ∧ { Params.reference with respLen := 0 }.wf = false) ∧
    step s = .next (stepped s) ∧
    s.toArchState.stepWith s.params s.stimulus (.fail 2) .ok = .next (stepped s).toArchState :=
  ⟨by decide +kernel, step_eq_stepped (by decide +kernel), stepWith_eq_next_of (by decide +kernel)⟩

theorem witness_MaskTextLoadsItsText :
    (List.replicate 1261 0x30#8).length ≤ 1261 ∧ List.replicate 1261 0x30#8 ≠ [] := by decide +kernel

end Sys2Proof.Tests
end

section
/-! The step of the block: which input it takes and what it does with it (spec/00_scope.md R9, R10; spec/30_encoding.md
R87; spec/70_reset_and_hazards.md R245, R257). -/

namespace Sys2Proof.Machine

/-! ### What one input does -/

theorem runWord_of_decode {x : CommandWord} {i : Instr} (s : State) (h : decode x = .ok i) :
    runWord x s = exec i s := by
  simp only [runWord, h]

@[simp] theorem takeInput_command (x : CommandWord) (s : State) : takeInput (.command x) s = runWord x s := rfl
@[simp] theorem takeInput_rxArrive (b : Byte) (s : State) : takeInput (.rxArrive b) s = .next (s.rxArrive b) := rfl
@[simp] theorem takeInput_reset (s : State) : takeInput .reset s = .next s.hardReset := rfl
@[simp] theorem takeWhileHeld_reset (s : State) : takeWhileHeld .reset s = .next s.hardReset := rfl

/-- The reset input leaves the arguments of the steps to come: beside them the state is that of R51. -/
theorem hardReset_eq_resetOf (s : State) :
    s.hardReset = { State.resetOf s.params with
      inputs := s.inputs, txAnswers := s.txAnswers, rxAnswers := s.rxAnswers, freeAnswers := s.freeAnswers } := rfl

theorem responseReady_eq_false {s : State} (h : s.rxq.length < s.params.respLen) : s.responseReady = false :=
  decide_eq_false (Nat.not_le.mpr h)

/-! ### Which input a step takes -/

section
variable {s : State} {m : Input} {left : List Input} (hwf : s.params.wf = true)
include hwf

theorem step_of_idle (hidle : s.busy = false) : step s = advanceIdle s := by
  simp only [step, advance, hidle, whenWellFormed, hwf, if_true]

theorem step_of_held (hheld : s.busy = true) : step s = advanceHeld s := by
  simp only [step, advance, hheld, whenWellFormed, hwf, if_true]

/-- At a command boundary the step takes the first input (R9). -/
theorem step_takes_first_input (hidle : s.busy = false) (hin : s.inputs = m :: left) :
    step s = takeInput m { s with inputs := left } := by
  rw [step_of_idle hwf hidle]
  simp only [advanceIdle, hin]

/-- In the hold of REG.READ, with the response still short, the step takes the first input that is no command word
(R87, R153). -/
theorem step_takes_next_move (hheld : s.busy = true) (hshort : s.rxq.length < s.params.respLen)
    (hmove : nextMove s.inputs = some (m, left)) : step s = takeWhileHeld m { s with inputs := left } := by
  rw [step_of_held hwf hheld]
  simp only [advanceHeld, responseReady_eq_false hshort, hmove, Bool.false_eq_true, if_false]

end

/-! ### The statements -/

/-- Settles O6: at a command boundary the word is the input taken, and running it is `exec` of what it decodes to. -/
theorem stepRunsTheDecodedCommand : Obligations.StepRunsTheDecodedCommand := by
  intro s x rest i hwf hidle hin hdec
  rw [step_takes_first_input hwf hidle hin, takeInput_command, runWord_of_decode _ hdec]

/-- Settles O56: reset is the input taken, at the boundary as the first input and in the hold as the next move, and in
both places it does the same; an arrival at the boundary is the first input too. -/
theorem resetInputAndArrivals : Obligations.ResetInputAndArrivals := by
  refine ⟨fun s left hwf => ⟨fun hidle hin => ?boundary, fun hheld hshort hmove => ?hold⟩,
    fun s b rest hwf hidle hin => ?arrival⟩
  case boundary =>
    rw [step_takes_first_input hwf hidle hin, takeInput_reset, hardReset_eq_resetOf]
  case hold =>
    rw [step_takes_next_move hwf hheld hshort hmove, takeWhileHeld_reset, hardReset_eq_resetOf]
  case arrival =>
    rw [step_takes_first_input hwf hidle hin, takeInput_rxArrive, State.rxArrive]

end Sys2Proof.Machine
end

section
/-! The invariants of R52: they hold at reset, and every command and every move of the environment keeps them. A
command's proof names the invariants whose elements it writes; the others are those of the state before. -/

namespace Sys2Proof.Machine

/-! ### What the constraints on the parameters give -/

theorem params_wf_vbDefault {p : Params} (h : p.wf = true) :
    p.vbDefault.length = p.vbNdac ∧ ∀ v ∈ p.vbDefault, v < 2 ^ p.vbW := by
  simp only [Params.wf, Bool.and_eq_true, decide_eq_true_eq, List.all_eq_true] at h
  tauto

/-- A frame has at least one byte after its start marker (R166). -/
theorem params_wf_bodyLen_pos {p : Params} (h : p.wf = true) : 0 < p.frame.bodyLen := by
  simp only [Params.wf, FrameTable.wf, Bool.and_eq_true, decide_eq_true_eq] at h
  have hpayload : 1 ≤ p.frame.payloadLen := by tauto
  exact Nat.add_pos_left hpayload _

/-! ### The override sets -/

theorem overridesFit_replicate_none (rows : List LayoutRow) :
    overridesFit rows (List.replicate rows.length none) = true := by
  induction rows with
  | nil => rfl
  | cons row rows ih => exact ih

theorem overridesFit_set {rows : List LayoutRow} {ovr : List (Option Nat)} {key v : Nat} {row : LayoutRow}
    (hfit : overridesFit rows ovr = true) (hrow : rows[key]? = some row) (hv : v < 2 ^ row.width) :
    overridesFit rows (ovr.set key (some v)) = true := by
  induction rows generalizing ovr key with
  | nil => cases hrow
  | cons r rows ih =>
    cases ovr with
    | nil => exact hfit
    | cons x ovr =>
      have hrest : overridesFit rows ovr = true := by
        cases x <;> simp_all [overridesFit]
      cases key with
      | zero =>
        obtain rfl : r = row := by simpa using hrow
        simp [overridesFit, hv, hrest]
      | succ key =>
        have hset := ih hrest (by simpa using hrow)
        cases x <;> simp_all [overridesFit]

/-! ### Reset -/

/-- The reset state of any implementation with well-formed parameters has the invariants (R51, R52). -/
theorem resetOf_inv {p : Params} (hp : p.wf = true) : (State.resetOf p).Inv where
  paramsWf := hp
  bbWithinCap := Nat.zero_le _
  mtxtWithinCap := Nat.zero_le _
  hitqWithinCap := Nat.zero_le _
  fbufWithinBody := Nat.zero_le _
  absentMaskEmpty _ := rfl
  dacOverridesFit := overridesFit_replicate_none _
  biasOverridesFit := overridesFit_replicate_none _
  vbCodesCount := (params_wf_vbDefault hp).1
  vbCodesFit := (params_wf_vbDefault hp).2
  cfgLength := List.length_replicate
  cfgValidEncodes h := nomatch h
  decoderBoundary := .inl ⟨rfl, rfl⟩
  injectionBoundary := .inl ⟨rfl, rfl⟩
  latchLow := rfl
  closedIffCause := iff_of_false (by simp [State.resetOf, ArchState.resetOf]) (fun h => h rfl)
  spiOnlyAfterEnable h := nomatch h
  recordsSound := nofun
  busyOnlyInRead h := nomatch h

theorem reference_wf : Params.reference.wf = true := by decide +kernel

/-- The reset input keeps the arguments of the steps to come, of which the invariants read the parameters alone. -/
theorem hardReset_inv {s : State} (hi : s.Inv) : s.hardReset.Inv := { resetOf_inv hi.paramsWf with }

/-! ### The session: what the stage says, and the moves of STAGE -/

theorem State.Inv.notTerminated {s : State} (hi : s.Inv) (hs : s.stage ≠ .closed) :
    s.termCause = .notTerminated := by
  by_contra hc
  exact hs (hi.closedIffCause.mpr hc)

theorem State.Inv.encoded_length {s : State} (hi : s.Inv) {bits : Bits} (h : s.encoded = .ok bits) :
    bits.length = s.params.layout.lCfg := encodeConfig_length hi.paramsWf h

/-- Before `Readout` SPI_EN is 0, so STAGE may move to any stage but `Closed` (R233). -/
theorem State.Inv.moveTo {s : State} (hi : s.Inv) (hidle : s.busy = false) {st : Stage} (hs : s.stage ≠ .closed)
    (hst : st ≠ .closed) (hspi : s.stage ≠ .readout) : { s with stage := st }.Inv :=
  { hi with
    closedIffCause := by simp [hst, hi.notTerminated hs]
    spiOnlyAfterEnable := fun h => absurd (hi.spiOnlyAfterEnable h) (by simp [hs, hspi])
    busyOnlyInRead := fun h => absurd h (by simp [hidle]) }

/-- The session ends with a cause (R213, R176, R157). -/
theorem State.Inv.terminate {s : State} (hi : s.Inv) (hidle : s.busy = false) {c : TermCause}
    (hc : c ≠ .notTerminated) : (s.terminate c).Inv :=
  { hi with
    closedIffCause := by simp [hc]
    spiOnlyAfterEnable := fun _ => .inr rfl
    busyOnlyInRead := fun h => absurd h (by simp [hidle]) }

/-! ### The decoder -/

/-- A frame emitted from any body leaves the decoder at its boundary; HITQ gains at most one record, and a sound one
(R171, R181). -/
theorem emitFrame_inv {s : State} (hi : s.Inv) (hroom : s.hitq.length < s.params.hitqCap) (body : List Byte) :
    (emitFrame { s with fbuf := body, decState := .emitting }).1.Inv := by
  rcases emitFrame_cases { s with fbuf := body, decState := .emitting } with ⟨hnone, he⟩ | ⟨c, _, he⟩ <;> rw [he]
  · refine { hi with
      hitqWithinCap := by simpa using hroom
      fbufWithinBody := Nat.zero_le _
      decoderBoundary := .inl ⟨rfl, rfl⟩
      recordsSound := ?sound }
    intro h hmem
    rcases List.mem_append.mp hmem with hold | hnew
    · exact hi.recordsSound h hold
    · obtain rfl := List.mem_singleton.mp hnew
      unfold frameCause at hnone
      split_ifs at hnone with _ _ hcol hrow
      exact ⟨Nat.lt_of_not_le hcol, Nat.lt_of_not_le hrow, rfl⟩
  · exact { hi with fbufWithinBody := Nat.zero_le _, decoderBoundary := .inl ⟨rfl, rfl⟩ }

/-- One more byte of a frame whose body is not complete (R170). -/
theorem readFrame_inv {s : State} (hi : s.Inv) (hroom : s.hitq.length < s.params.hitqCap)
    (hbody : s.fbuf.length < s.params.frame.bodyLen) (x : Byte) :
    (readFrame x { s with decState := .readingFrame }).1.Inv := by
  unfold readFrame
  split
  next => exact emitFrame_inv hi hroom _
  next hshort =>
    have hlt : (s.fbuf ++ [x]).length < s.params.frame.bodyLen :=
      Nat.lt_of_le_of_ne (by simpa using hbody) hshort
    exact { hi with fbufWithinBody := hlt.le, decoderBoundary := .inr ⟨rfl, hlt⟩ }

/-- One byte through the decoder keeps the invariants while HITQ has room (R168). -/
theorem decByte_inv {s : State} (hi : s.Inv) (hroom : s.hitq.length < s.params.hitqCap) (x : Byte) :
    (decByte x s).1.Inv := by
  rcases hi.decoderBoundary with ⟨hsync, hempty⟩ | ⟨hread, hbody⟩
  case inl =>
    have hbody : s.fbuf.length < s.params.frame.bodyLen := by
      rw [hempty]; exact params_wf_bodyLen_pos hi.paramsWf
    rw [decByte, if_pos hsync, awaitSync]
    split
    · split
      · exact { hi with decoderBoundary := .inr ⟨rfl, hbody⟩ }
      · exact { hi with }
    · exact readFrame_inv hi hroom hbody x
  case inr =>
    have hself : { s with decState := .readingFrame } = s := by rw [← hread]
    have hnot : s.decState ≠ .awaitingSync := by simp [hread]
    rw [decByte, if_neg hnot, ← hself]
    exact readFrame_inv hi hroom hbody x

/-- One byte adds at most one record to HITQ (R176). -/
theorem decByte_hitq_length_le (x : Byte) (s : State) : (decByte x s).1.hitq.length ≤ s.hitq.length + 1 := by
  have hc := decByte_counts x s
  rcases hd : decByte x s with ⟨t, ev⟩
  rw [hd] at hc
  cases ev with
  | nothing => rw [hc.1]; exact Nat.le_succ _
  | record => obtain ⟨⟨h, hq⟩, _⟩ := hc; simp [hq]
  | decodeError => rw [hc.1]; exact Nat.le_succ _

theorem decByte_params (x : Byte) (s : State) : (decByte x s).1.params = s.params := by rw [decByte_frame x s]

theorem decBytes_cons (x : Byte) (xs : List Byte) (s : State) (hits errs : Nat) :
    ∃ hits' errs', decBytes (x :: xs) s hits errs = decBytes xs (decByte x s).1 hits' errs' := by
  rcases hd : decByte x s with ⟨t, ev⟩
  cases ev <;> simp only [decBytes, hd] <;> exact ⟨_, _, rfl⟩

/-- Decoding no more bytes than HITQ has free places keeps the invariants (R176). -/
theorem decBytes_inv {bs : List Byte} {s : State} (hi : s.Inv) (hroom : s.hitq.length + bs.length ≤ s.params.hitqCap)
    (hits errs : Nat) : (decBytes bs s hits errs).1.Inv := by
  induction bs generalizing s hits errs with
  | nil => exact hi
  | cons x xs ih =>
    obtain ⟨hits', errs', hcons⟩ := decBytes_cons x xs s hits errs
    have hgrow := decByte_hitq_length_le x s
    rw [List.length_cons] at hroom
    rw [hcons]
    refine ih (decByte_inv hi (by omega) x) ?_ _ _
    rw [decByte_params]; omega

theorem decBytes_busy (bs : List Byte) (s : State) (hits errs : Nat) : (decBytes bs s hits errs).1.busy = s.busy := by
  rw [decBytes_frame bs s hits errs]

theorem closeAfterPoll_inv {s : State} (hi : s.Inv) (hidle : s.busy = false) : s.closeAfterPoll.Inv := by
  unfold State.closeAfterPoll
  split_ifs
  · exact hi.terminate hidle (by decide)
  · exact hi.terminate hidle (by decide)
  · exact hi

theorem polled_inv {s : State} (hi : s.Inv) (hidle : s.busy = false) {bs : List Byte}
    (hroom : s.hitq.length + bs.length ≤ s.params.hitqCap) : (s.polled bs).Inv := by
  have hdec := decBytes_inv hi hroom 0 0
  have hbusy := decBytes_busy bs s 0 0
  rw [hidle] at hbusy
  exact closeAfterPoll_inv (s := { (decBytes bs s 0 0).1 with r := _, runCount := _ }) { hdec with } hbusy

/-- RD.POLL reads no more bytes than HITQ has free places (R176). -/
theorem hitq_add_pollCount_le {s : State} (hi : s.Inv) (n : Word) :
    s.hitq.length + (s.rxq.take (s.pollCount n)).length ≤ s.params.hitqCap := by
  have hcap := hi.hitqWithinCap
  rw [List.length_take, State.pollCount]
  omega

/-! ### The commands -/

/-- Every way a command can end keeps the invariants. -/
theorem ran_inv {i : Instr} {s t : State} (hi : s.Inv) (hidle : s.busy = false) (h : Ran i s t) : t.Inv := by
  cases h with
  | gate => exact { hi with }
  | fault => exact { hi with }
  | pack w o v _ hb => exact { hi with bbWithinCap := by simpa using hb }
  | unpack => exact { hi with bbWithinCap := (List.drop_sublist ..).length_le.trans hi.bbWithinCap }
  | bbClr => exact { hi with bbWithinCap := Nat.zero_le _ }
  | maskPack _ m hm hb =>
    have hlen := maskRegion_length (params_wf_layout hi.paramsWf).1 hm
    exact { hi with bbWithinCap := by simpa [hlen] using hb }
  | cfgClr =>
    exact { hi with
      dacOverridesFit := overridesFit_replicate_none _
      biasOverridesFit := overridesFit_replicate_none _
      cfgValidEncodes := nofun }
  | cfgSet _ half key value row hr hv =>
    cases half with
    | dac => exact { hi with dacOverridesFit := overridesFit_set hi.dacOverridesFit hr hv, cfgValidEncodes := nofun }
    | bias => exact { hi with biasOverridesFit := overridesFit_set hi.biasOverridesFit hr hv, cfgValidEncodes := nofun }
  | maskPut _ c =>
    refine { hi with mtxtWithinCap := ?cap, absentMaskEmpty := nofun, cfgValidEncodes := nofun }
    dsimp only
    split_ifs with hroom
    · simpa using hroom
    · exact hi.mtxtWithinCap
  | maskNone =>
    exact { hi with mtxtWithinCap := Nat.zero_le _, absentMaskEmpty := fun _ => rfl, cfgValidEncodes := nofun }
  | cfgEncode _ bits he =>
    exact { hi with cfgLength := hi.encoded_length he, cfgValidEncodes := fun _ => he }
  | sessInit =>
    exact { (hardReset_inv hi).moveTo rfl (st := .inited) nofun (by decide) nofun with }
  | asicInit _ bits _ _ hs he =>
    exact { hi.moveTo hidle (st := .asicDone) (by simp [hs]) (by decide) (by simp [hs]) with
      cfgLength := hi.encoded_length he, cfgValidEncodes := fun _ => he, latchLow := rfl }
  | asicInitFail _ bits _ _ _ _ he =>
    exact { hi with cfgLength := hi.encoded_length he, cfgValidEncodes := fun _ => he }
  | writeFail => exact { hi with }
  | vbSet _ ch code hv =>
    refine { hi with vbCodesCount := by simpa using hi.vbCodesCount, vbCodesFit := ?fit }
    intro v hmem
    rcases List.mem_or_eq_of_mem_set hmem with hold | rfl
    · exact hi.vbCodesFit v hold
    · exact hv
  | vbInit _ _ _ _ hs =>
    exact { hi.moveTo hidle (st := .voltDone) (by simp [hs]) (by decide) (by simp [hs]) with latchLow := rfl }
  | held _ _ _ _ hs => exact { hi with busyOnlyInRead := fun _ => hs }
  | regRead => exact { hi with busyOnlyInRead := nofun }
  | regReadFail => exact { hi with busyOnlyInRead := nofun }
  | spiEnable _ hs =>
    exact { hi.moveTo hidle (st := .readout) (by simp [hs]) (by decide) (by simp [hs]) with
      spiOnlyAfterEnable := fun _ => .inl rfl }
  | sessClose => exact { hi.terminate hidle (c := .sessClose) (by decide) with }
  | rdProbe => exact { hi with }
  | rdPollFail => exact { hi with }
  | rdPoll _ n ra fa =>
    have hread : State.Inv { s with rxq := s.rxq.drop (s.pollCount n), rxAnswers := ra, freeAnswers := fa } :=
      { hi with }
    exact { polled_inv hread hidle (hitq_add_pollCount_le hi n) with }
  | hitPop _ h rest hq =>
    have hcap := hi.hitqWithinCap
    have hsound := hi.recordsSound
    rw [hq] at hcap hsound
    exact { hi with
      hitqWithinCap := (Nat.le_succ _).trans hcap
      recordsSound := fun g hg => hsound g (List.mem_cons_of_mem _ hg) }
  | injSet => exact { hi with }
  | injInit _ _ _ hs =>
    exact { hi.moveTo hidle (st := .injDone) (by simp [hs]) (by decide) (by simp [hs]) with latchLow := rfl }
  | injStartAgain => exact { hi with }
  | injStart => exact { hi with injectionBoundary := .inr ⟨rfl, rfl⟩, latchLow := rfl }
  | injStopAgain => exact { hi with }
  | injStop => exact { hi with injectionBoundary := .inl ⟨rfl, rfl⟩ }
  | errRecord =>
    split_ifs
    · exact { hi.terminate hidle (c := .budgetExceeded) (by decide) with }
    · exact { hi with }
  | errExceeded => exact { hi with }

/-- A word the port accepts: no command at all (R85), or one of the commands. -/
theorem runWord_inv {s t : State} (hi : s.Inv) (hidle : s.busy = false) {x : CommandWord}
    (h : runWord x s = .next t) : t.Inv := by
  unfold runWord at h
  split at h
  · rw [faulted_eq_next] at h; subst h; exact { hi with }
  · rw [faulted_eq_next] at h; subst h; exact { hi with }
  · exact ran_inv hi hidle (exec_ran h)

/-! ### The moves of the environment, and the step -/

/-- The invariants read no input. -/
theorem State.Inv.withInputs {s : State} (hi : s.Inv) (left : List Input) : { s with inputs := left }.Inv :=
  { hi with }

theorem rxArrive_inv {s : State} (hi : s.Inv) (b : Byte) : (s.rxArrive b).Inv := { hi with }

theorem finishRead_inv {s t : State} (hi : s.Inv) (h : finishRead s = .next t) : t.Inv := by
  rcases finishRead_cases s with ⟨_, _, _, he⟩ | ⟨_, _, he⟩ <;> rw [he] at h <;> cases h
  · exact { hi with busyOnlyInRead := nofun }
  · exact { hi with busyOnlyInRead := nofun }

theorem failHeldRead_inv {s t : State} (hi : s.Inv) {j : Nat} (h : failHeldRead s j = .next t) : t.Inv := by
  rw [failHeldRead, faulted_eq_next] at h
  subst h
  exact { hi with busyOnlyInRead := nofun }

theorem takeInput_inv {s t : State} (hi : s.Inv) (hidle : s.busy = false) {m : Input}
    (h : takeInput m s = .next t) : t.Inv := by
  cases m with
  | command x => exact runWord_inv hi hidle h
  | rxArrive b => cases h; exact rxArrive_inv hi b
  | heldReadFails j => cases h; exact hi
  | reset => cases h; exact hardReset_inv hi

theorem takeWhileHeld_inv {s t : State} (hi : s.Inv) {m : Input} (h : takeWhileHeld m s = .next t) : t.Inv := by
  cases m with
  | command x => cases h; exact hi
  | rxArrive b => cases h; exact rxArrive_inv hi b
  | heldReadFails j => exact failHeldRead_inv hi h
  | reset => cases h; exact hardReset_inv hi

theorem advanceIdle_inv {s t : State} (hi : s.Inv) (hidle : s.busy = false) (h : advanceIdle s = .next t) : t.Inv := by
  unfold advanceIdle at h
  split at h
  next => cases h; exact hi
  next m rest _ => exact takeInput_inv (hi.withInputs rest) hidle h

theorem advanceHeld_inv {s t : State} (hi : s.Inv) (h : advanceHeld s = .next t) : t.Inv := by
  unfold advanceHeld at h
  split at h
  next => exact finishRead_inv hi h
  next =>
    split at h
    next => cases h; exact hi
    next m left _ => exact takeWhileHeld_inv (hi.withInputs left) h

/-! ### The statements -/

/-- Settles O57: the reference parameters are well-formed. -/
theorem invariantsHoldAtReset : Obligations.InvariantsHoldAtReset := resetOf_inv reference_wf

/-- Settles O58: a step is one input at a command boundary, or one move in the hold of REG.READ, and each keeps the
invariants. -/
theorem everyStepKeepsTheInvariants : Obligations.EveryStepKeepsTheInvariants := by
  intro s t hi h
  cases hbusy : s.busy with
  | false => rw [step_of_idle hi.paramsWf hbusy] at h; exact advanceIdle_inv hi hbusy h
  | true => rw [step_of_held hi.paramsWf hbusy] at h; exact advanceHeld_inv hi h

end Sys2Proof.Machine
end

section
/-! Reset, and what every command does to STAGE, to the result registers and to OUT: each a case split over the ways a
command can end (`Ran`). -/

namespace Sys2Proof.Machine

/-! ### What RD.POLL leaves unchanged after its read, and the fields of INJ_F at reset -/

@[simp] theorem polled_out (s : State) (bs : List Byte) : (s.polled bs).out = s.out := by
  rw [polled_eq, closeAfterPoll_eq]

@[simp] theorem polled_r3 (s : State) (bs : List Byte) : (s.polled bs).r.r3 = s.r.r3 := by
  rw [polled_eq, closeAfterPoll_eq]

@[simp] theorem polled_r4 (s : State) (bs : List Byte) : (s.polled bs).r.r4 = s.r.r4 := by
  rw [polled_eq, closeAfterPoll_eq]

/-- RD.POLL leaves STAGE or closes the session (R176). -/
theorem polled_stage (s : State) (bs : List Byte) : (s.polled bs).stage = s.stage ∨ (s.polled bs).stage = .closed := by
  rw [polled_eq, closeAfterPoll_eq]
  dsimp only
  split_ifs
  · exact .inr rfl
  · exact .inl rfl

@[simp] theorem zero_get (f : InjField) : InjFields.zero.get f = 0 := by cases f <;> rfl

/-! ### The statements -/

/-- Settles O55: the machine's reset state is that of an implementation too, and its elements are written out one by
one. -/
theorem resetPutsEveryElementAtItsValue : Obligations.ResetPutsEveryElementAtItsValue := by
  have hreset : ∀ s : State, (s = State.reset ∨ ∃ p, s = State.resetOf p) → ∃ p, s = State.resetOf p := by
    rintro s (rfl | hp)
    · exact ⟨_, rfl⟩
    · exact hp
  refine ⟨fun s hs => ?_, by decide, by decide, by decide, by decide, by decide⟩
  obtain ⟨p, rfl⟩ := hreset s hs
  simp [ArchState.resetOf, Stage.code, TermCause.code, InjState.code, DecState.code, DecCause.code, LatchTarget.code]

/-- Settles O51: the commands that write STAGE are those listed, and each of the four steps up starts at the one stage
where its command is legal. -/
theorem stageMovesOnlyAsListed : Obligations.StageMovesOnlyAsListed := by
  intro i s t h hmoved
  cases exec_ran h with
  | sessInit _ en m e => exact .inl ⟨rfl, en, m, e, rfl⟩
  | asicInit _ _ _ _ hs => exact .inr (.inl ⟨hs, rfl, rfl⟩)
  | vbInit _ slot _ _ hs => exact .inr (.inr (.inl ⟨hs, rfl, slot, rfl⟩))
  | injInit _ _ _ hs => exact .inr (.inr (.inr (.inl ⟨hs, rfl, rfl⟩)))
  | spiEnable _ hs => exact .inr (.inr (.inr (.inr (.inl ⟨hs, rfl, rfl⟩))))
  | sessClose => exact .inr (.inr (.inr (.inr (.inr ⟨rfl, .inl rfl⟩))))
  | errRecord =>
    have hclosed := (ite_eq_or_eq ..).resolve_right hmoved
    exact .inr (.inr (.inr (.inr (.inr ⟨hclosed, .inr (.inl rfl)⟩))))
  | rdPoll _ n =>
    have hclosed := (polled_stage ..).resolve_left hmoved
    exact .inr (.inr (.inr (.inr (.inr ⟨hclosed, .inr (.inr ⟨n, rfl⟩)⟩))))
  | _ => exact absurd rfl hmoved

/-- Settles O52: a way to end that writes a result register is a success of one of the seven commands; it writes `r[0]`
alone but for RD.POLL and HIT.POP. -/
theorem resultRegistersChangeOnlyAsListed : Obligations.ResultRegistersChangeOnlyAsListed := by
  intro i s t h hwrote
  cases exec_ran h with
  | unpack w o => exact ⟨rfl, .inl ⟨w, o, rfl⟩, fun _ => ⟨rfl, rfl⟩, fun _ _ => ⟨rfl, rfl⟩⟩
  | regRead _ addr => exact ⟨rfl, .inr (.inl ⟨addr, rfl⟩), fun _ => ⟨rfl, rfl⟩, fun _ _ => ⟨rfl, rfl⟩⟩
  | rdProbe => exact ⟨rfl, .inr (.inr (.inl rfl)), fun _ => ⟨rfl, rfl⟩, fun _ _ => ⟨rfl, rfl⟩⟩
  | rdPoll _ n =>
    exact ⟨rfl, .inr (.inr (.inr (.inl ⟨n, rfl⟩))), fun _ => ⟨polled_r3 .., polled_r4 ..⟩,
      fun _ hnot => absurd rfl (hnot n)⟩
  | hitPop =>
    exact ⟨rfl, .inr (.inr (.inr (.inr (.inl rfl)))), fun hnot => absurd rfl hnot, fun hnot => absurd rfl hnot⟩
  | errRecord =>
    exact ⟨rfl, .inr (.inr (.inr (.inr (.inr (.inl rfl))))), fun _ => ⟨rfl, rfl⟩, fun _ _ => ⟨rfl, rfl⟩⟩
  | errExceeded =>
    exact ⟨rfl, .inr (.inr (.inr (.inr (.inr (.inr rfl))))), fun _ => ⟨rfl, rfl⟩, fun _ _ => ⟨rfl, rfl⟩⟩
  | _ => exact absurd rfl hwrote

/-- Every command only adds to the end of OUT (R47). -/
theorem exec_out_prefix {i : Instr} {s t : State} (h : exec i s = .next t) : s.out <+: t.out := by
  cases exec_ran h with
  | sessInit => exact List.prefix_append ..
  | asicInit => exact (List.prefix_append ..).trans (List.prefix_append ..)
  | asicInitFail => exact List.prefix_append ..
  | writeFail => exact List.prefix_append ..
  | vbInit => exact (List.prefix_append ..).trans (List.prefix_append ..)
  | held => exact List.prefix_append ..
  | regRead => exact List.prefix_append ..
  | regReadFail => exact List.prefix_append ..
  | spiEnable => exact List.prefix_append ..
  | rdPoll => exact (polled_out ..).symm ▸ List.prefix_rfl
  | injInit => exact (List.prefix_append ..).trans (List.prefix_append ..)
  | injStart =>
    exact ((List.prefix_append ..).trans (List.prefix_append ..)).trans (List.prefix_append ..)
  | injStop => exact List.prefix_append ..
  | _ => exact List.prefix_rfl

/-- Settles O53: the ways to end with TransportError are a write or a read that failed (R226), and each has added bytes
alone. -/
theorem outIsHistoryAndFailedWritesPulseNothing : Obligations.OutIsHistoryAndFailedWritesPulseNothing := by
  refine ⟨fun i s t h => ?history, fun i s t _ h hended hstatus => ?failed⟩
  case history =>
    obtain ⟨evs, hout⟩ := exec_out_prefix h
    exact ⟨evs, hout.symm⟩
  case failed =>
    cases exec_ran h with
    | fault _ _ c _ hc =>
      obtain rfl : c = .transportError := hstatus
      cases hc
    | held => cases hended
    | asicInitFail _ bits k => exact ⟨⟨(tobytes bits).take k, rfl⟩, rfl, rfl, rfl, rfl, rfl, rfl, rfl, rfl⟩
    | writeFail _ _ bs => exact ⟨⟨bs, rfl⟩, rfl, rfl, rfl, rfl, rfl, rfl, rfl, rfl⟩
    | regReadFail _ addr => exact ⟨⟨[addr], rfl⟩, rfl, rfl, rfl, rfl, rfl, rfl, rfl, rfl⟩
    | rdPollFail => exact ⟨⟨[], (List.append_nil _).symm⟩, rfl, rfl, rfl, rfl, rfl, rfl, rfl, rfl⟩
    | _ => cases hstatus

end Sys2Proof.Machine
end

section
/-! The step and its arguments (spec/10_state.md R20, R25): with well-formed parameters every step answers a next state,
it takes placed answers from the front alone, and what it does to the state of the block is the step of R20 with one input
and one draw for either transport call. -/

namespace Sys2Proof.Machine

/-! ### What a step leaves of its arguments -/

/-- The arguments `left` are what a step can leave of `g`: the same parameters, and placed answers used up from the
front alone. -/
structure StepArguments.LeftOf (left g : StepArguments) : Prop where
  params : left.params = g.params
  txAnswers : left.txAnswers <:+ g.txAnswers
  rxAnswers : left.rxAnswers <:+ g.rxAnswers

theorem leftOf_refl (g : StepArguments) : g.LeftOf g := ⟨rfl, List.suffix_rfl, List.suffix_rfl⟩

theorem leftOf_trans {f g h : StepArguments} (hfg : f.LeftOf g) (hgh : g.LeftOf h) : f.LeftOf h :=
  ⟨hfg.params.trans hgh.params, hfg.txAnswers.trans hgh.txAnswers, hfg.rxAnswers.trans hgh.rxAnswers⟩

theorem afterTx_leftOf (g : StepArguments) : g.afterTx.LeftOf g := by
  unfold StepArguments.afterTx
  split
  next hplaced => exact ⟨rfl, hplaced ▸ List.suffix_cons .., List.suffix_rfl⟩
  next => exact ⟨rfl, List.suffix_rfl, List.suffix_rfl⟩

theorem afterRx_leftOf (g : StepArguments) : g.afterRx.LeftOf g := by
  unfold StepArguments.afterRx
  split
  next hplaced => exact ⟨rfl, List.suffix_rfl, hplaced ▸ List.suffix_cons ..⟩
  next => exact ⟨rfl, List.suffix_rfl, List.suffix_rfl⟩

/-- The result is a next state, whose arguments are what a step can leave of `g`. -/
def AnswersWithin (g : StepArguments) (x : Result) : Prop := ∃ t, x = .next t ∧ t.toStepArguments.LeftOf g

theorem answers_next {g : StepArguments} {t : State} (h : t.toStepArguments.LeftOf g) : AnswersWithin g (.next t) :=
  ⟨t, rfl, h⟩

theorem answers_faulted {g : StepArguments} {s : State} (h : s.toStepArguments.LeftOf g) (c : Cause) (info : Word) :
    AnswersWithin g (faulted s c info) := ⟨_, rfl, h⟩

theorem answers_succeeded {g : StepArguments} {s : State} (h : s.toStepArguments.LeftOf g) :
    AnswersWithin g (succeeded s) := ⟨_, rfl, h⟩

theorem answers_gated {i : Instr} {s : State} {body : Result} (h : AnswersWithin s.toStepArguments body) :
    AnswersWithin s.toStepArguments (gated i s body) := by
  unfold gated
  split
  · exact h
  · exact answers_faulted (leftOf_refl _) _ _

/-- A read that ends, in one way or the other, has drawn one answer (R142). -/
theorem rxRead_arguments (s : State) (m : Nat) :
    (∃ bs u, s.rxRead m = .ok (bs, u) ∧ u.toStepArguments.LeftOf s.toStepArguments) ∨
    (∃ u, s.rxRead m = .error u ∧ u.toStepArguments.LeftOf s.toStepArguments) := by
  rw [← s.parts_eta, rxRead_parts]
  cases s.rxDraw with
  | ok => exact .inl ⟨_, _, rfl, afterRx_leftOf _⟩
  | fail j => exact .inr ⟨_, rfl, afterRx_leftOf _⟩

/-- The same of a write (R141). -/
theorem txWrite_arguments (s : State) (bs : List Byte) :
    (∃ u, s.txWrite bs = .ok u ∧ u.toStepArguments.LeftOf s.toStepArguments) ∨
    (∃ u, s.txWrite bs = .error u ∧ u.toStepArguments.LeftOf s.toStepArguments) := by
  rw [← s.parts_eta, txWrite_parts]
  cases s.txDraw with
  | ok => exact .inl ⟨_, rfl, afterTx_leftOf _⟩
  | fail k => exact .inr ⟨_, rfl, afterTx_leftOf _⟩

/-- The same of a shift-register write (R143). -/
theorem srWrite_arguments (s : State) (bits : Bits) (l : LatchTarget) (p : Byte) :
    (∃ u, s.srWrite bits l p = .ok u ∧ u.toStepArguments.LeftOf s.toStepArguments) ∨
    (∃ u, s.srWrite bits l p = .error u ∧ u.toStepArguments.LeftOf s.toStepArguments) := by
  unfold State.srWrite
  rcases txWrite_arguments s (tobytes bits) with ⟨u, hu, hleft⟩ | ⟨u, hu, hleft⟩ <;> rw [hu]
  · exact .inl ⟨_, rfl, hleft⟩
  · exact .inr ⟨_, rfl, hleft⟩

theorem finishRead_answers (s : State) : AnswersWithin s.toStepArguments (finishRead s) := by
  unfold finishRead
  rcases rxRead_arguments s s.params.respLen with ⟨bs, u, hu, hleft⟩ | ⟨u, hu, hleft⟩ <;> rw [hu]
  · exact answers_succeeded hleft
  · exact answers_next hleft

@[simp] theorem polled_toStepArguments (s : State) (bs : List Byte) :
    (s.polled bs).toStepArguments = s.toStepArguments := by
  rw [polled_eq, closeAfterPoll_eq]

@[simp] theorem closeIfExceeded_toStepArguments (s : State) :
    s.closeIfExceeded.toStepArguments = s.toStepArguments := by
  rw [closeIfExceeded_eq]

@[simp] theorem setOverride_toStepArguments (s : State) (half : Half) (key v : Nat) :
    (s.setOverride half key v).toStepArguments = s.toStepArguments := by
  cases half <;> rfl

/-- EVERY COMMAND ANSWERS A NEXT STATE, at every stage and with every draw (R87, R227). -/
theorem exec_answers (i : Instr) (s : State) : AnswersWithin s.toStepArguments (exec i s) := by
  have hsame := leftOf_refl s.toStepArguments
  cases i with
  | pack w o v =>
    rw [exec, execPack]
    refine answers_gated ?_
    split
    · exact answers_faulted hsame _ _
    · split
      · exact answers_faulted hsame _ _
      · split
        · exact answers_faulted hsame _ _
        · exact answers_succeeded hsame
  | unpack w o =>
    rw [exec, execUnpack]
    refine answers_gated ?_
    split_ifs
    · exact answers_faulted hsame _ _
    · exact answers_faulted hsame _ _
    · exact answers_succeeded hsame
  | bbClr =>
    rw [exec, execBbClr]
    exact answers_gated (answers_succeeded hsame)
  | maskPack =>
    rw [exec, execMaskPack]
    refine answers_gated ?_
    split
    · exact answers_faulted hsame _ _
    · split
      · exact answers_faulted hsame _ _
      · exact answers_succeeded hsame
  | cfgClr =>
    rw [exec, execCfgClr]
    exact answers_gated (answers_succeeded hsame)
  | cfgSet half key value =>
    rw [exec, execCfgSet]
    refine answers_gated ?_
    split
    · exact answers_faulted hsame _ _
    · split
      · exact answers_succeeded (by simpa using hsame)
      · exact answers_faulted hsame _ _
  | maskPut c =>
    rw [exec, execMaskPut]
    exact answers_gated (answers_succeeded hsame)
  | maskNone =>
    rw [exec, execMaskNone]
    exact answers_gated (answers_succeeded hsame)
  | cfgEncode =>
    rw [exec, execCfgEncode]
    refine answers_gated ?_
    split
    · exact answers_faulted hsame _ _
    · exact answers_succeeded hsame
  | sessInit en m e =>
    rw [exec, execSessInit]
    exact answers_gated (answers_succeeded hsame)
  | asicInit =>
    rw [exec, execAsicInit]
    refine answers_gated ?_
    split
    next => exact answers_faulted hsame _ _
    next bits _ =>
      rcases srWrite_arguments { s with cfg := bits, cfgValid := true } bits .asicConfig 0 with
        ⟨u, hu, hleft⟩ | ⟨u, hu, hleft⟩ <;> rw [hu]
      · exact answers_succeeded hleft
      · exact answers_next hleft
  | vbSet ch code =>
    rw [exec, execVbSet]
    refine answers_gated ?_
    split_ifs
    · exact answers_succeeded hsame
    · exact answers_faulted hsame _ _
    · exact answers_faulted hsame _ _
  | vbInit slot =>
    rw [exec, execVbInit]
    refine answers_gated ?_
    split
    · rcases srWrite_arguments s s.vbBits .voltageBoard slot with ⟨u, hu, hleft⟩ | ⟨u, hu, hleft⟩ <;> rw [hu]
      · exact answers_succeeded hleft
      · exact answers_next hleft
    · exact answers_faulted hsame _ _
  | regRead addr =>
    rw [exec, execRegRead]
    refine answers_gated ?_
    rcases txWrite_arguments s [addr] with ⟨u, hu, hleft⟩ | ⟨u, hu, hleft⟩ <;> rw [hu]
    · dsimp only
      split
      · obtain ⟨t, ht, hread⟩ := finishRead_answers { u with busy := true }
        exact ⟨t, ht, leftOf_trans hread hleft⟩
      · exact answers_next hleft
    · exact answers_next hleft
  | spiEnable =>
    rw [exec, execSpiEnable]
    exact answers_gated (answers_succeeded hsame)
  | sessClose =>
    rw [exec, execSessClose]
    exact answers_gated (answers_succeeded hsame)
  | rdProbe =>
    rw [exec, execRdProbe]
    exact answers_gated (answers_succeeded hsame)
  | rdPoll n =>
    rw [exec, execRdPoll]
    refine answers_gated ?_
    rcases rxRead_arguments s (s.pollCount n) with ⟨bs, u, hu, hleft⟩ | ⟨u, hu, hleft⟩ <;> rw [hu]
    · exact answers_succeeded (by simpa using hleft)
    · exact answers_next hleft
  | hitPop =>
    rw [exec, execHitPop]
    refine answers_gated ?_
    split
    · exact answers_faulted hsame _ _
    · exact answers_succeeded hsame
  | injSet f v =>
    rw [exec, execInjSet]
    exact answers_gated (answers_succeeded hsame)
  | injInit =>
    rw [exec, execInjInit]
    refine answers_gated ?_
    split
    · exact answers_faulted hsame _ _
    · rcases srWrite_arguments s s.injDacBits .injectionDac s.injSlot with ⟨u, hu, hleft⟩ | ⟨u, hu, hleft⟩ <;> rw [hu]
      · exact answers_succeeded hleft
      · exact answers_next hleft
  | injStart =>
    rw [exec, execInjStart]
    refine answers_gated ?_
    split
    · exact answers_succeeded hsame
    · split
      · exact answers_faulted hsame _ _
      · rcases srWrite_arguments s s.injTimingBits .injectionTiming s.injSlot with
          ⟨u, hu, hleft⟩ | ⟨u, hu, hleft⟩ <;> rw [hu]
        · exact answers_succeeded hleft
        · exact answers_next hleft
  | injStop =>
    rw [exec, execInjStop]
    refine answers_gated ?_
    split_ifs
    · exact answers_succeeded hsame
    · exact answers_succeeded hsame
  | errRecord =>
    rw [exec, execErrRecord]
    exact answers_gated (answers_succeeded ((closeIfExceeded_toStepArguments _).symm ▸ hsame))
  | errExceeded =>
    rw [exec, execErrExceeded]
    exact answers_gated (answers_succeeded hsame)

theorem runWord_answers (x : CommandWord) (s : State) : AnswersWithin s.toStepArguments (runWord x s) := by
  unfold runWord
  split
  · exact answers_faulted (leftOf_refl _) _ _
  · exact answers_faulted (leftOf_refl _) _ _
  · exact exec_answers _ s

theorem takeInput_answers (m : Input) (s : State) : AnswersWithin s.toStepArguments (takeInput m s) := by
  cases m with
  | command x => exact runWord_answers x s
  | rxArrive b => exact answers_next (leftOf_refl _)
  | heldReadFails j => exact answers_next (leftOf_refl _)
  | reset => exact answers_next (leftOf_refl _)

theorem takeWhileHeld_answers (m : Input) (s : State) : AnswersWithin s.toStepArguments (takeWhileHeld m s) := by
  cases m with
  | command x => exact answers_next (leftOf_refl _)
  | rxArrive b => exact answers_next (leftOf_refl _)
  | heldReadFails j => exact answers_faulted (leftOf_refl _) _ _
  | reset => exact answers_next (leftOf_refl _)

/-- What is left of the arguments does not depend on the inputs. -/
theorem answers_withInputs {g : StepArguments} {x : Result} {left : List Input}
    (h : AnswersWithin { g with inputs := left } x) : AnswersWithin g x := by
  obtain ⟨t, ht, hleft⟩ := h
  exact ⟨t, ht, hleft.params, hleft.txAnswers, hleft.rxAnswers⟩

theorem advanceIdle_answers (s : State) : AnswersWithin s.toStepArguments (advanceIdle s) := by
  unfold advanceIdle
  split
  · exact answers_next (leftOf_refl _)
  · exact answers_withInputs (takeInput_answers _ _)

theorem advanceHeld_answers (s : State) : AnswersWithin s.toStepArguments (advanceHeld s) := by
  unfold advanceHeld
  split
  · exact finishRead_answers s
  · split
    · exact answers_next (leftOf_refl _)
    · exact answers_withInputs (takeWhileHeld_answers _ _)

/-- With well-formed parameters no step stops (U14). -/
theorem step_answers {s : State} (hwf : s.params.wf = true) : AnswersWithin s.toStepArguments (step s) := by
  cases hbusy : s.busy with
  | false => rw [step_of_idle hwf hbusy]; exact advanceIdle_answers s
  | true => rw [step_of_held hwf hbusy]; exact advanceHeld_answers s

/-- With others the model refuses (U14). -/
theorem step_of_illFormed {s : State} (hwf : s.params.wf = false) : step s = .refused .illFormedParameters := by
  cases hbusy : s.busy <;> simp [step, advance, hbusy, whenWellFormed, hwf]

theorem params_wf_of_step {s t : State} (h : step s = .next t) : s.params.wf = true := by
  by_contra hwf
  rw [step_of_illFormed (Bool.eq_false_iff.mpr hwf)] at h
  cases h

/-- At a command boundary with no input the block waits for the host (R9). -/
theorem step_waits {s : State} (hwf : s.params.wf = true) (hidle : s.busy = false) (hin : s.inputs = []) :
    step s = .next s := by
  rw [step_of_idle hwf hidle]
  simp only [advanceIdle, hin]

/-! ### The hold of REG.READ -/

section
variable {s : State} (hwf : s.params.wf = true) (hheld : s.busy = true)
include hwf hheld

/-- The hold ends as soon as the response is there (R153). -/
theorem step_finishes_read (hready : s.params.respLen ≤ s.rxq.length) : step s = finishRead s := by
  rw [step_of_held hwf hheld, advanceHeld, State.responseReady, if_pos (decide_eq_true hready)]

/-- With the response short and no move left, the hold goes on (U15, R257). -/
theorem step_holds (hshort : s.rxq.length < s.params.respLen) (hmove : nextMove s.inputs = none) :
    step s = .next s := by
  rw [step_of_held hwf hheld]
  simp only [advanceHeld, responseReady_eq_false hshort, hmove, Bool.false_eq_true, if_false]

end

/-- The command words on the port, in their order. -/
def commandWords (l : List Input) : List CommandWord :=
  l.filterMap (fun m => match m with | .command x => some x | _ => none)

@[simp] theorem commandWords_command (x : CommandWord) (l : List Input) :
    commandWords (.command x :: l) = x :: commandWords l := rfl

/-- The move taken in the hold is taken from between the command words (R87). -/
theorem nextMove_commandWords {l left : List Input} {m : Input} (h : nextMove l = some (m, left)) :
    commandWords left = commandWords l := by
  induction l generalizing left with
  | nil => cases h
  | cons x rest ih =>
    cases x with
    | command w =>
      simp only [nextMove] at h
      split at h
      next => cases h
      next _ left' hrest => cases h; rw [commandWords_command, commandWords_command, ih hrest]
    | rxArrive b => cases h; rfl
    | heldReadFails j => cases h; rfl
    | reset => cases h; rfl

theorem finishRead_inputs {s t : State} (h : finishRead s = .next t) : t.inputs = s.inputs := by
  rcases finishRead_cases s with ⟨_, _, _, he⟩ | ⟨_, _, he⟩ <;> rw [he] at h <;> cases h <;> rfl

theorem takeWhileHeld_inputs {m : Input} {s t : State} (h : takeWhileHeld m s = .next t) : t.inputs = s.inputs := by
  cases m <;> cases h <;> rfl

theorem advanceHeld_commandWords {s t : State} (h : advanceHeld s = .next t) :
    commandWords t.inputs = commandWords s.inputs := by
  unfold advanceHeld at h
  split at h
  next => rw [finishRead_inputs h]
  next =>
    split at h
    next => cases h; rfl
    next m left hmove => rw [takeWhileHeld_inputs h]; exact nextMove_commandWords hmove

/-! ### The step of R20 -/

/-- The draw `d` is the answer placed first, where one is placed. -/
def PlacedFirst (answers : List TransportOutcome) (d : TransportOutcome) : Prop :=
  ∀ x rest, answers = x :: rest → d = x

theorem txDraw_placedFirst (g : StepArguments) : PlacedFirst g.txAnswers g.txDraw := by
  intro x rest h; simp only [StepArguments.txDraw, h]

theorem rxDraw_placedFirst (g : StepArguments) : PlacedFirst g.rxAnswers g.rxDraw := by
  intro x rest h; simp only [StepArguments.rxDraw, h]

theorem afterTx_rxAnswers (g : StepArguments) : g.afterTx.rxAnswers = g.rxAnswers := by
  unfold StepArguments.afterTx; split <;> rfl

theorem stepWith_eq_next_iff_archOf {p : Params} {m : Option Input} {tx rx : TransportOutcome} {a b : ArchState} :
    a.stepWith p m tx rx = .next b ↔ archOf (step ⟨a, .one p m tx rx⟩) = some b := by
  unfold ArchState.stepWith step
  split <;> simp_all [archOf]

/-- Some draw for the read, the first of `answers` if one is placed, makes `y` leave the block in the state in which `x`
leaves it. -/
def SameWithOneDraw (answers : List TransportOutcome) (x : Result) (y : TransportOutcome → Result) : Prop :=
  ∃ rx, PlacedFirst answers rx ∧ archOf x = archOf (y rx)

theorem sameWithOneDraw_congr {answers : List TransportOutcome} {x x' : Result} {y y' : TransportOutcome → Result}
    (hx : x = x') (hy : ∀ rx, y rx = y' rx) (h : SameWithOneDraw answers x' y') : SameWithOneDraw answers x y := by
  obtain rfl := hx
  obtain rfl := funext hy
  exact h

/-- Where nothing is read, or the read is answered first, the draw is the one the arguments give. -/
theorem sameWithOneDraw_of_rxDraw {g : StepArguments} {x : Result} {y : TransportOutcome → Result}
    (h : archOf x = archOf (y g.rxDraw)) : SameWithOneDraw g.rxAnswers x y := ⟨g.rxDraw, rxDraw_placedFirst g, h⟩

/-- REG.READ alone draws for a read after it has drawn for a write, so only for it the read's draw is the one after the
write's. -/
theorem exec_oneDraw (i : Instr) (a : ArchState) (g : StepArguments) :
    SameWithOneDraw g.rxAnswers (exec i ⟨a, g⟩) (fun rx => exec i ⟨a, .one g.params none g.txDraw rx⟩) := by
  by_cases hread : ∃ addr, i = .regRead addr
  · have hplaced := rxDraw_placedFirst g.afterTx
    rw [afterTx_rxAnswers] at hplaced
    refine ⟨g.afterTx.rxDraw, hplaced, exec_parts i a rfl rfl ?_ (fun _ => rfl)⟩
    rintro ⟨n, rfl⟩
    obtain ⟨addr, h⟩ := hread
    cases h
  · exact sameWithOneDraw_of_rxDraw (exec_parts i a rfl rfl (fun _ => rfl) (fun h => absurd h hread))

theorem takeInput_oneDraw (m : Input) (a : ArchState) (g : StepArguments) :
    SameWithOneDraw g.rxAnswers (takeInput m ⟨a, g⟩) (fun rx => takeInput m ⟨a, .one g.params none g.txDraw rx⟩) := by
  cases m with
  | command x =>
    cases hdec : decode x with
    | ok i => simpa only [takeInput_command, runWord_of_decode _ hdec] using exec_oneDraw i a g
    | error e =>
      refine sameWithOneDraw_of_rxDraw ?_
      cases e <;> simp only [takeInput_command, runWord, hdec] <;> rfl
  | rxArrive b => exact sameWithOneDraw_of_rxDraw rfl
  | heldReadFails j => exact sameWithOneDraw_of_rxDraw rfl
  | reset => exact sameWithOneDraw_of_rxDraw rfl

theorem takeWhileHeld_oneDraw (m : Input) (a : ArchState) (g : StepArguments) :
    SameWithOneDraw g.rxAnswers (takeWhileHeld m ⟨a, g⟩)
      (fun rx => takeWhileHeld m ⟨a, .one g.params none g.txDraw rx⟩) := by
  cases m <;> exact sameWithOneDraw_of_rxDraw rfl

theorem stimulus_of_idle {s : State} (hidle : s.busy = false) : s.stimulus = s.inputs.head? := by
  simp [State.stimulus, hidle]

theorem stimulus_of_held {s : State} (hheld : s.busy = true) : s.stimulus = (nextMove s.inputs).map Prod.fst := by
  simp [State.stimulus, hheld]

/-- What a step does to the state of the block is the step of R20 with the stimulus as its one input. -/
theorem step_oneDraw {s : State} (hwf : s.params.wf = true) :
    SameWithOneDraw s.rxAnswers (step s)
      (fun rx => step ⟨s.toArchState, .one s.params s.stimulus s.txDraw rx⟩) := by
  obtain ⟨a, g⟩ := s
  cases hbusy : a.busy with
  | false =>
    rw [stimulus_of_idle hbusy]
    cases hin : g.inputs with
    | nil =>
      exact sameWithOneDraw_congr (step_waits hwf hbusy hin) (fun rx => step_waits hwf hbusy rfl)
        (sameWithOneDraw_of_rxDraw rfl)
    | cons m rest =>
      exact sameWithOneDraw_congr (step_takes_first_input hwf hbusy hin)
        (fun rx => step_takes_first_input hwf hbusy rfl) (takeInput_oneDraw m a { g with inputs := rest })
  | true =>
    rw [stimulus_of_held hbusy]
    rcases Nat.lt_or_ge a.rxq.length g.params.respLen with hshort | hready
    · cases hmove : nextMove g.inputs with
      | none =>
        exact sameWithOneDraw_congr (step_holds hwf hbusy hshort hmove) (fun rx => step_holds hwf hbusy hshort rfl)
          (sameWithOneDraw_of_rxDraw rfl)
      | some taken =>
        obtain ⟨m, left⟩ := taken
        exact sameWithOneDraw_congr (step_takes_next_move hwf hbusy hshort hmove)
          (fun rx => step_takes_next_move hwf hbusy hshort (nextMove_alone hmove))
          (takeWhileHeld_oneDraw m a { g with inputs := left })
    · exact sameWithOneDraw_congr (step_finishes_read hwf hbusy hready)
        (fun rx => step_finishes_read hwf hbusy hready) (sameWithOneDraw_of_rxDraw (finishRead_parts a rfl rfl))

/-! ### The statements -/

/-- Settles O7: in the hold the step finishes the read, waits, or takes an input that is no command word. -/
theorem busyPortKeepsItsCommands : Obligations.BusyPortKeepsItsCommands := by
  intro s t hheld h
  rw [step_of_held (params_wf_of_step h) hheld] at h
  exact advanceHeld_commandWords h

/-- Settles O59: every step of R20 is a step of the machine by the definition of `ArchState.stepWith`; the other parts
are `step_answers` and `step_oneDraw`. -/
theorem stepsExactlyWithWellFormedParameters : Obligations.StepsExactlyWithWellFormedParameters := by
  refine ⟨fun s => ⟨fun hwf => ?answers, step_of_illFormed⟩, fun s t h => ?oneDraw, fun p m tx rx a b h => ?converse⟩
  case answers =>
    obtain ⟨t, ht, hleft⟩ := step_answers hwf
    exact ⟨t, ht, hleft.params⟩
  case oneDraw =>
    have hwf := params_wf_of_step h
    obtain ⟨t', ht', hleft⟩ := step_answers hwf
    obtain rfl : t = t' := by rw [h] at ht'; injection ht'
    obtain ⟨rx, hrx, hsame⟩ := step_oneDraw hwf
    rw [h] at hsame
    exact ⟨hleft.txAnswers, hleft.rxAnswers, s.txDraw, rx, stepWith_eq_next_iff_archOf.mpr hsame.symm,
      txDraw_placedFirst _, hrx⟩
  case converse =>
    obtain ⟨left, hstep⟩ := ArchState.stepWith_eq_next.mp h
    exact ⟨_, _, rfl, rfl, hstep, rfl⟩

end Sys2Proof.Machine
end

section
/-! The bits of the codec (spec/40_codec.md R100, R101) and of the byte packing (spec/20_memory.md R64 to R67). -/

namespace Sys2Proof.Machine

/-! ### `pack` and `unpack`, bit by bit -/

theorem pack_of_lt {v w : Nat} (o : BitOrder) (h : v < 2 ^ w) : pack v w o = some (packBits v w o) := if_pos h

theorem unpack_lsb_cons (b : Bool) (s : Bits) : unpack (b :: s) .lsb = Nat.bit b (unpack s .lsb) := by
  cases b <;> simp [unpack, bitValue, Nat.bit, Nat.add_comm]

theorem unpack_msb_eq_lsb_reverse (s : Bits) : unpack s .msb = unpack s.reverse .lsb := by
  simp [unpack, Nat.add_comm]

theorem packBits_msb_eq_reverse_lsb (v w : Nat) : packBits v w .msb = (packBits v w .lsb).reverse := by
  refine List.ext_getElem (by simp) fun i _ _ => ?_
  simp [packBits]

/-- For `LSB` the `i`-th bit of the sequence is the bit of weight `2^i`, and past the end there is none. -/
theorem testBit_unpack_lsb (s : Bits) (i : Nat) : (unpack s .lsb).testBit i = s.getD i false := by
  induction s generalizing i with
  | nil => simp [unpack]
  | cons b s ih =>
    rw [unpack_lsb_cons]
    cases i with
    | zero => rw [Nat.testBit_bit_zero, List.getD_cons_zero]
    | succ i => rw [Nat.testBit_bit_succ, ih, List.getD_cons_succ]

/-- For `MSB` the `i`-th bit of the sequence is the bit of weight `2^(|s|-1-i)`. -/
theorem testBit_unpack_msb {s : Bits} {i : Nat} (h : i < s.length) :
    (unpack s .msb).testBit (s.length - 1 - i) = s.getD i false := by
  rw [unpack_msb_eq_lsb_reverse, testBit_unpack_lsb, List.getD_reverse _ (by omega)]
  congr 1
  omega

/-- Unpacking in the order of the packing gives the `w` bits back (R102). -/
theorem unpack_packBits (v w : Nat) (o : BitOrder) : unpack (packBits v w o) o = v % 2 ^ w := by
  have hlsb : unpack (packBits v w .lsb) .lsb = v % 2 ^ w := by
    refine Nat.eq_of_testBit_eq fun i => ?_
    rw [testBit_unpack_lsb, Nat.testBit_mod_two_pow]
    by_cases hi : i < w <;> simp [packBits, hi]
  cases o with
  | lsb => exact hlsb
  | msb => rw [unpack_msb_eq_lsb_reverse, packBits_msb_eq_reverse_lsb, List.reverse_reverse, hlsb]

/-! ### A slot as two fields (R67) -/

/-- The low bits of a slot come first for `LSB`. -/
theorem packBits_lsb_add (v w1 w2 : Nat) :
    packBits v (w1 + w2) .lsb = packBits v w1 .lsb ++ packBits (v / 2 ^ w1) w2 .lsb := by
  simp [packBits, List.range_add, Nat.testBit_div_two_pow, Function.comp_def, Nat.add_comm]

/-- The high bits of a slot come first for `MSB`. -/
theorem packBits_msb_add (v w1 w2 : Nat) :
    packBits v (w1 + w2) .msb = packBits (v / 2 ^ w2) w1 .msb ++ packBits v w2 .msb := by
  simp only [packBits_msb_eq_reverse_lsb, Nat.add_comm w1 w2, packBits_lsb_add, List.reverse_append]

theorem memRead_append_left {s t : Bits} {n : Nat} (h : s.length = n) : memRead (s ++ t) 0 n = s := by
  simp [memRead, ← h]

theorem memRead_append_right {s t : Bits} {k n : Nat} (hs : s.length = k) (ht : t.length = n) :
    memRead (s ++ t) k n = t := by
  simp [memRead, ← hs, ← ht]

/-- Settles O10: the packed slot is the two packed fields one after the other, and each is read back by itself. -/
theorem slotReadAsTwoFieldsSplitsTheValue : Obligations.SlotReadAsTwoFieldsSplitsTheValue := by
  intro v w1 w2 hv
  refine ⟨⟨_, pack_of_lt .msb hv, ?_⟩, ⟨_, pack_of_lt .lsb hv, ?_⟩⟩
  · have hhigh : v / 2 ^ w2 < 2 ^ w1 := Nat.div_lt_of_lt_mul (by rwa [← pow_add, Nat.add_comm])
    rw [packBits_msb_add, memRead_append_left (packBits_length ..),
      memRead_append_right (packBits_length ..) (packBits_length ..), unpack_packBits, unpack_packBits,
      Nat.mod_eq_of_lt hhigh]
    exact ⟨rfl, rfl⟩
  · have hhigh : v / 2 ^ w1 < 2 ^ w2 := Nat.div_lt_of_lt_mul (by rwa [← pow_add])
    rw [packBits_lsb_add, memRead_append_left (packBits_length ..),
      memRead_append_right (packBits_length ..) (packBits_length ..), unpack_packBits, unpack_packBits,
      Nat.mod_eq_of_lt hhigh]
    exact ⟨rfl, rfl⟩

/-! ### Bits to bytes (R64) -/

/-- A missing bit is 0, so the padding adds none. -/
theorem getD_append_zeros (s : Bits) (n i : Nat) : (s ++ zeros n).getD i false = s.getD i false := by
  rcases Nat.lt_or_ge i s.length with h | h
  · exact List.getD_append _ _ _ _ h
  · rw [List.getD_append_right _ _ _ _ h, List.getD_eq_default _ _ h, List.getD_eq_getElem?_getD,
      List.getElem?_getD_replicate_default_eq]

theorem getLsbD_byteOfBits {chunk : Bits} {i : Nat} (hlen : chunk.length ≤ 8) (hi : i < 8) :
    (byteOfBits chunk).getLsbD (7 - i) = chunk.getD i false := by
  have hpad : (chunk ++ zeros (8 - chunk.length)).length = 8 := by simp; omega
  have hbit := testBit_unpack_msb (hpad.symm ▸ hi : i < (chunk ++ zeros (8 - chunk.length)).length)
  rw [hpad, getD_append_zeros] at hbit
  rw [byteOfBits, BitVec.getLsbD_ofNat, hbit, decide_eq_true (by omega), Bool.true_and]

@[simp] theorem bytesOfBits_length (n : Nat) (s : Bits) : (bytesOfBits n s).length = n := by
  induction n generalizing s with
  | zero => rfl
  | succ n ih => rw [bytesOfBits, List.length_cons, ih]

theorem bytesOfBits_getD {n j : Nat} (s : Bits) (h : j < n) :
    (bytesOfBits n s).getD j 0 = byteOfBits ((s.drop (8 * j)).take 8) := by
  induction n generalizing s j with
  | zero => omega
  | succ n ih =>
    rw [bytesOfBits]
    cases j with
    | zero => rw [List.getD_cons_zero, Nat.mul_zero, List.drop_zero]
    | succ j => rw [List.getD_cons_succ, ih _ (by omega), List.drop_drop, Nat.mul_succ, Nat.add_comm]

@[simp] theorem tobytes_length (s : Bits) : (tobytes s).length = (s.length + 7) / 8 := bytesOfBits_length ..

/-- Bit `8j+i` of the sequence is bit `7-i` of byte `j`. -/
theorem getLsbD_tobytes (s : Bits) {j i : Nat} (hj : j < (s.length + 7) / 8) (hi : i < 8) :
    ((tobytes s).getD j 0).getLsbD (7 - i) = s.getD (8 * j + i) false := by
  rw [tobytes, bytesOfBits_getD s hj, getLsbD_byteOfBits (List.length_take_le ..) hi]
  simp [List.getD_eq_getElem?_getD, hi]

/-! ### Bytes to bits (R65) -/

@[simp] theorem frombytes_cons (b : Byte) (bs : List Byte) :
    frombytes (b :: bs) = packBits b.toNat 8 .msb ++ frombytes bs := List.flatMap_cons

@[simp] theorem frombytes_length (bs : List Byte) : (frombytes bs).length = 8 * bs.length := by
  induction bs with
  | nil => rfl
  | cons b bs ih => rw [frombytes_cons, List.length_append, packBits_length, ih, List.length_cons]; omega

/-- Bit `7-i` of byte `j` is bit `8j+i` of the sequence. -/
theorem frombytes_getElem? {bs : List Byte} {j i : Nat} (hj : j < bs.length) (hi : i < 8) :
    (frombytes bs)[8 * j + i]? = some ((bs.getD j 0).getLsbD (7 - i)) := by
  induction bs generalizing j with
  | nil => simp at hj
  | cons b bs ih =>
    rw [frombytes_cons]
    cases j with
    | zero =>
      rw [List.getElem?_append_left (by simpa using hi), List.getD_cons_zero]
      simp [packBits, hi, BitVec.getLsbD]
    | succ j =>
      rw [List.getElem?_append_right (by simp; omega), List.getD_cons_succ, packBits_length,
        ← ih (Nat.lt_of_succ_lt_succ hj)]
      congr 1
      omega

/-- The bytes of a sequence give it back with the padding of its last byte: bit by bit, the placing of R65 undoes the
placing of R64. -/
theorem frombytes_tobytes (s : Bits) :
    frombytes (tobytes s) = s ++ zeros (8 * ((s.length + 7) / 8) - s.length) := by
  refine List.ext_getElem (by simp; omega) fun k hk hk' => ?_
  have hj : k / 8 < (s.length + 7) / 8 := by simp at hk; omega
  have hi : k % 8 < 8 := Nat.mod_lt _ (by decide)
  have hbit := frombytes_getElem? (bs := tobytes s) (by simpa using hj) hi
  rw [getLsbD_tobytes s hj hi, Nat.div_add_mod, List.getElem?_eq_getElem hk] at hbit
  rw [Option.some.inj hbit, ← List.getD_eq_getElem _ false hk', getD_append_zeros]

/-! ### The value of a response (R66) -/

/-- Horner's scheme from the most significant digit. -/
theorem foldl_digits_eq_ofDigits {α : Type} (b : Nat) (digit : α → Nat) (l : List α) :
    l.foldl (fun acc x => b * acc + digit x) 0 = Nat.ofDigits b (l.map digit).reverse := by
  simp [Nat.ofDigits_eq_foldr, ← List.map_reverse, List.foldr_map, Nat.add_comm]

/-- The number whose digits are `l`, the most significant first, by the weights of its digits. -/
theorem ofDigits_reverse_eq_sum (b : Nat) (l : List Nat) :
    Nat.ofDigits b l.reverse = ((List.range l.length).map (fun j => l.getD j 0 * b ^ (l.length - 1 - j))).sum := by
  induction l with
  | nil => rfl
  | cons d l ih =>
    rw [Nat.ofDigits_reverse_cons, ih, List.length_cons, List.range_succ_eq_map, Nat.add_comm, Nat.mul_comm]
    simp only [List.map_cons, List.map_map, List.sum_cons, Function.comp_def, List.getD_cons_zero,
      List.getD_cons_succ, Nat.add_sub_cancel, Nat.sub_zero, Nat.sub_sub, Nat.succ_eq_add_one, Nat.add_comm 1]

/-- Four bytes fit a word, so nothing of the value is lost. -/
theorem responseValue_toNat {bs : List Byte} (h : bs.length ≤ 4) :
    (responseValue bs).toNat = Nat.ofDigits 256 (bs.map BitVec.toNat).reverse := by
  have hlt : Nat.ofDigits 256 (bs.map BitVec.toNat).reverse < 256 ^ bs.length := by
    have hdigits : ∀ x ∈ (bs.map BitVec.toNat).reverse, x < 256 := by
      intro x hx
      obtain ⟨b, -, rfl⟩ := List.mem_map.mp (List.mem_reverse.mp hx)
      exact b.isLt
    simpa using Nat.ofDigits_lt_base_pow_length (by decide) hdigits
  have hword : 256 ^ bs.length ≤ 2 ^ 32 := Nat.pow_le_pow_right (n := 256) (by decide) h
  rw [responseValue, foldl_digits_eq_ofDigits, BitVec.toNat_ofNat, Nat.mod_eq_of_lt (hlt.trans_le hword)]

theorem responseValue_eq_sum {bs : List Byte} (h : bs.length ≤ 4) :
    (responseValue bs).toNat =
      ((List.range bs.length).map (fun j => (bs.getD j 0).toNat * 256 ^ (bs.length - 1 - j))).sum := by
  have hdigit (j : Nat) : (bs.map BitVec.toNat).getD j 0 = (bs.getD j 0).toNat :=
    List.getD_map bs 0 BitVec.toNat
  rw [responseValue_toNat h, ofDigits_reverse_eq_sum, List.length_map]
  simp only [hdigit]

/-- Settles O12: the placing of either direction (R64, R65), the round trip that follows from the two, and the value of
a response (R66). -/
theorem bytePackingPlacesEachBit : Obligations.BytePackingPlacesEachBit :=
  ⟨fun s => ⟨tobytes_length s, fun _ _ => getLsbD_tobytes s⟩,
    fun bs => ⟨frombytes_length bs, fun _ _ => frombytes_getElem?⟩,
    frombytes_tobytes, fun _ => responseValue_eq_sum⟩

end Sys2Proof.Machine
end

section
/-! The decoder as the table of R83: each row with its reserved bits and the command it reads, which is
what the encoder inverts and what the rows of R84 select (spec/30_encoding.md R81 to R85). -/

namespace Sys2Proof

/-! ### Operands in their fields (R82) -/

/-- A field whose reserved bits are all but bit 0 is its bit 0. -/
theorem eq_bit_of_rest_zero {n : Nat} {x : BitVec n} (h : x &&& ~~~1#n = 0#n) :
    (if x.getLsbD 0 then 1#n else 0#n) = x := by
  apply BitVec.eq_of_getLsbD_eq
  intro i hi
  have hbit : (x &&& ~~~1#n).getLsbD i = false := by rw [h, BitVec.getLsbD_zero]
  cases i with
  | zero => cases hx : x.getLsbD 0 <;> simp [hi]
  | succ i =>
    have hx : x.getLsbD (i + 1) = false := by simpa [hi] using hbit
    rw [hx]
    split <;> simp

theorem orderOfBit_orderField (o : BitOrder) : orderOfBit (orderField o) = o := by cases o <;> rfl

theorem halfOfBit_halfField (half : Half) : halfOfBit (halfField half) = half := by cases half <;> rfl

theorem injFieldOf_injFieldId (f : InjField) : injFieldOf (injFieldId f) = f := by cases f <;> rfl

theorem getElem_flagField (en : Bool) : (if en then 1#8 else 0#8)[0] = en := by cases en <;> rfl

theorem orderField_reserved (o : BitOrder) : orderField o &&& 0xFFFE#16 = 0#16 := by cases o <;> rfl

theorem halfField_reserved (half : Half) : halfField half &&& 0xFFFE#16 = 0#16 := by cases half <;> rfl

theorem injFieldId_reserved (f : InjField) : injFieldId f &&& 0xF8#8 = 0#8 := by cases f <;> rfl

theorem flagField_reserved (en : Bool) : (if en then 1#8 else 0#8) &&& 0xFE#8 = 0#8 := by cases en <;> rfl

theorem orderField_orderOfBit {b : BitVec 16} (h : b &&& 0xFFFE#16 = 0#16) : orderField (orderOfBit b) = b := by
  rw [orderOfBit, apply_ite orderField]
  exact eq_bit_of_rest_zero h

theorem halfField_halfOfBit {b : BitVec 16} (h : b &&& 0xFFFE#16 = 0#16) : halfField (halfOfBit b) = b := by
  rw [halfOfBit, apply_ite halfField]
  exact eq_bit_of_rest_zero h

theorem flagField_getLsbD {a : Byte} (h : a &&& 0xFE#8 = 0#8) : (if a.getLsbD 0 then 1#8 else 0#8) = a :=
  eq_bit_of_rest_zero h

theorem injFieldId_injFieldOf : ∀ a : Byte, a &&& 0xF8#8 = 0#8 → injFieldId (injFieldOf a) = a := by decide +kernel

/-! ### A field that is reserved as a whole (R83) -/

theorem and_0xFF_eq_zero {a : Byte} : a &&& 0xFF#8 = 0#8 ↔ a = 0#8 := by
  rw [show a &&& 0xFF#8 = a from BitVec.and_allOnes]

theorem and_0xFFFF_eq_zero {b : BitVec 16} : b &&& 0xFFFF#16 = 0#16 ↔ b = 0#16 := by
  rw [show b &&& 0xFFFF#16 = b from BitVec.and_allOnes]

theorem and_0xFFFFFFFF_eq_zero {imm : Word} : imm &&& 0xFFFFFFFF#32 = 0#32 ↔ imm = 0#32 := by
  rw [show imm &&& 0xFFFFFFFF#32 = imm from BitVec.and_allOnes]

/-! ### The rows of R83 -/

/-- One row of R83's table for a word with given operand fields: its opcode, the reserved bits of the three operand
fields, and the command it reads from them. -/
structure CommandRow where
  op : Byte
  reservedA : Byte
  reservedB : BitVec 16
  reservedImm : Word
  command : Instr

/-- R83's table, for a word with the operand fields `a`, `b` and `imm`. -/
def commandRows (a : Byte) (b : BitVec 16) (imm : Word) : List CommandRow :=
  [ ⟨0x01, 0x00, 0xFFFE, 0, .pack a (orderOfBit b) imm⟩,
    ⟨0x02, 0x00, 0xFFFE, 0xFFFFFFFF, .unpack a (orderOfBit b)⟩,
    ⟨0x03, 0xFF, 0xFFFF, 0xFFFFFFFF, .bbClr⟩,
    ⟨0x04, 0xFF, 0xFFFF, 0xFFFFFFFF, .maskPack⟩,
    ⟨0x10, 0xFF, 0xFFFF, 0xFFFFFFFF, .cfgClr⟩,
    ⟨0x11, 0x00, 0xFFFE, 0, .cfgSet (halfOfBit b) a imm⟩,
    ⟨0x12, 0x00, 0xFFFF, 0xFFFFFFFF, .maskPut a⟩,
    ⟨0x13, 0xFF, 0xFFFF, 0xFFFFFFFF, .maskNone⟩,
    ⟨0x14, 0xFF, 0xFFFF, 0xFFFFFFFF, .cfgEncode⟩,
    ⟨0x20, 0xFE, 0, 0, .sessInit (a.getLsbD 0) b imm⟩,
    ⟨0x21, 0xFF, 0xFFFF, 0xFFFFFFFF, .asicInit⟩,
    ⟨0x22, 0x00, 0xFFFF, 0, .vbSet a imm⟩,
    ⟨0x23, 0x00, 0xFFFF, 0xFFFFFFFF, .vbInit a⟩,
    ⟨0x24, 0x00, 0xFFFF, 0xFFFFFFFF, .regRead a⟩,
    ⟨0x25, 0xFF, 0xFFFF, 0xFFFFFFFF, .spiEnable⟩,
    ⟨0x26, 0xFF, 0xFFFF, 0xFFFFFFFF, .sessClose⟩,
    ⟨0x30, 0xFF, 0xFFFF, 0xFFFFFFFF, .rdProbe⟩,
    ⟨0x31, 0xFF, 0xFFFF, 0, .rdPoll imm⟩,
    ⟨0x32, 0xFF, 0xFFFF, 0xFFFFFFFF, .hitPop⟩,
    ⟨0x40, 0xF8, 0xFFFF, 0, .injSet (injFieldOf a) imm⟩,
    ⟨0x41, 0xFF, 0xFFFF, 0xFFFFFFFF, .injInit⟩,
    ⟨0x42, 0xFF, 0xFFFF, 0xFFFFFFFF, .injStart⟩,
    ⟨0x43, 0xFF, 0xFFFF, 0xFFFFFFFF, .injStop⟩,
    ⟨0x50, 0xFF, 0xFFFF, 0xFFFFFFFF, .errRecord⟩,
    ⟨0x51, 0xFF, 0xFFFF, 0xFFFFFFFF, .errExceeded⟩ ]

/-- The `match` and `mask` words of the row (R84). -/
def CommandRow.selector (r : CommandRow) : CommandWord × CommandWord :=
  (assembleWord r.op 0 0 0, assembleWord 0xFF r.reservedA r.reservedB r.reservedImm)

/-- The reserved bits of the row are 0 in these operand fields (R85 case 2). -/
def CommandRow.ReservedZero (r : CommandRow) (a : Byte) (b : BitVec 16) (imm : Word) : Prop :=
  a &&& r.reservedA = 0 ∧ b &&& r.reservedB = 0 ∧ imm &&& r.reservedImm = 0

section
variable {a : Byte} {b : BitVec 16} {imm : Word} {r r' : CommandRow}

/-- The table of R84 is the table of R83. -/
theorem opcodeRows_eq (a : Byte) (b : BitVec 16) (imm : Word) :
    opcodeRows = (commandRows a b imm).map CommandRow.selector :=
  have hclosed : opcodeRows = (commandRows 0 0 0).map CommandRow.selector := by decide +kernel
  hclosed

/-- No opcode stands in two rows. -/
theorem row_eq_of_op_eq (hr : r ∈ commandRows a b imm) (hr' : r' ∈ commandRows a b imm) (h : r.op = r'.op) : r = r' :=
  List.inj_on_of_nodup_map (f := CommandRow.op) (by simp [commandRows]) hr hr' h

/-- A word whose opcode has a row is decoded by that row. -/
theorem decodeFields_of_row (hr : r ∈ commandRows a b imm) :
    decodeFields r.op a b imm = withReserved a b imm r.reservedA r.reservedB r.reservedImm r.command := by
  fin_cases hr <;> rfl

/-- An opcode with no row is unknown (R85 case 1). -/
theorem decodeFields_of_no_row {op : Byte} (h : ∀ r ∈ commandRows a b imm, op ≠ r.op) :
    decodeFields op a b imm = .error .unknownOpcode := by
  have hop : op ∉ (commandRows 0 0 0).map CommandRow.op := fun hmem =>
    have ⟨r, hr, heq⟩ := List.mem_map.mp (show op ∈ (commandRows a b imm).map CommandRow.op from hmem)
    h r hr heq.symm
  unfold decodeFields
  split
  case h_26 => rfl
  all_goals exact absurd (by decide) hop

/-- The encoder gives back the fields from which a row read its command, since the reserved bits are 0. -/
theorem encode_command (hr : r ∈ commandRows a b imm) (hz : r.ReservedZero a b imm) :
    encode r.command = assembleWord r.op a b imm := by
  revert r
  simp +contextual only [commandRows, List.forall_mem_cons, List.not_mem_nil, CommandRow.ReservedZero, encode,
    BitVec.ofNat_eq_ofNat, and_0xFF_eq_zero, and_0xFFFF_eq_zero, and_0xFFFFFFFF_eq_zero,
    orderField_orderOfBit, halfField_halfOfBit, injFieldId_injFieldOf, flagField_getLsbD, and_true, implies_true,
    false_implies]

end

/-! ### The decoder on a word -/

section
variable {x : CommandWord} {r : CommandRow}

/-- R83's table for the operand fields of a word. -/
abbrev rowsOf (x : CommandWord) : List CommandRow := commandRows (fieldA x) (fieldB x) (fieldImm x)

/-- A word selects a row when it has the row's opcode and zeros in the row's reserved bits (R84). -/
def CommandRow.Selected (r : CommandRow) (x : CommandWord) : Prop :=
  fieldOp x = r.op ∧ r.ReservedZero (fieldA x) (fieldB x) (fieldImm x)

theorem selected_iff_masked : r.Selected x ↔ x &&& r.selector.2 = r.selector.1 := (selects_iff ..).symm

/-- A selected row gives its command. -/
theorem decode_of_selected (hr : r ∈ rowsOf x) (hsel : r.Selected x) : decode x = .ok r.command := by
  obtain ⟨hop, hz⟩ := hsel
  rw [decode, hop, decodeFields_of_row hr]
  exact if_pos hz

/-- With the opcode of a row that it does not select, a word has a reserved bit set (R85 case 2). -/
theorem decode_of_not_selected (hr : r ∈ rowsOf x) (hop : fieldOp x = r.op) (hsel : ¬ r.Selected x) :
    decode x = .error .reservedBit := by
  rw [decode, hop, decodeFields_of_row hr]
  exact if_neg fun hz => hsel ⟨hop, hz⟩

theorem decode_of_no_row (h : ∀ r ∈ rowsOf x, fieldOp x ≠ r.op) : decode x = .error .unknownOpcode :=
  decodeFields_of_no_row h

/-- The decoder answers a command exactly when a row of the table is selected, and the command is that row's. -/
theorem decode_eq_ok_iff {i : Instr} : decode x = .ok i ↔ ∃ r ∈ rowsOf x, r.Selected x ∧ r.command = i := by
  constructor
  · intro hdec
    by_cases hrow : ∃ r ∈ rowsOf x, fieldOp x = r.op
    · obtain ⟨r, hr, hop⟩ := hrow
      by_cases hsel : r.Selected x
      · rw [decode_of_selected hr hsel] at hdec
        exact ⟨r, hr, hsel, Except.ok.inj hdec⟩
      · simp [decode_of_not_selected hr hop hsel] at hdec
    · simp [decode_of_no_row (x := x) (by simpa using hrow)] at hdec
  · rintro ⟨r, hr, hsel, rfl⟩
    exact decode_of_selected hr hsel

/-- The rows of R84 are those of R83: what is said of their `match` and `mask` words is said of the rows. -/
theorem mem_opcodeRows (x : CommandWord) {row : CommandWord × CommandWord} :
    row ∈ opcodeRows ↔ ∃ r ∈ rowsOf x, r.selector = row := by
  rw [opcodeRows_eq (fieldA x) (fieldB x) (fieldImm x), List.mem_map]

theorem fieldOp_selector (r : CommandRow) : fieldOp r.selector.1 = r.op := fieldOp_assembleWord ..

end

/-! ### The statements -/

/-- Settles O1: the decoder is given the fields the encoder put together. It finds each operand in its field, and 0 in
the reserved bits beside it. -/
theorem decodeInvertsEncode : Obligations.DecodeInvertsEncode := by
  intro i
  cases i <;>
    simp [encode, decode_assembleWord, decodeFields, withReserved, orderOfBit_orderField, halfOfBit_halfField,
      injFieldOf_injFieldId, getElem_flagField, orderField_reserved, halfField_reserved, injFieldId_reserved,
      flagField_reserved]

/-- Settles O2: a word that decodes has the opcode of its row and zeros in the row's reserved bits, and these with the
operand fields are all of it. -/
theorem encodeInvertsDecode : Obligations.EncodeInvertsDecode := by
  intro x i hdec
  obtain ⟨r, hr, ⟨hop, hz⟩, rfl⟩ := decode_eq_ok_iff.mp hdec
  rw [encode_command hr hz, ← hop, assembleWord_fields]

/-- Settles O3: the rows of R84 are those the decoder tries, and a word has one opcode. -/
theorem decodesIffOneTableRowSelects : Obligations.DecodesIffOneTableRowSelects := by
  refine ⟨fun x => ⟨?selects, ?decodes⟩, fun x row hrow row' hrow' h h' => ?unique⟩
  case selects =>
    rintro ⟨i, hdec⟩
    obtain ⟨r, hr, hsel, -⟩ := decode_eq_ok_iff.mp hdec
    exact ⟨r.selector, (mem_opcodeRows x).mpr ⟨r, hr, rfl⟩, selected_iff_masked.mp hsel⟩
  case decodes =>
    rintro ⟨row, hrow, h⟩
    obtain ⟨r, hr, rfl⟩ := (mem_opcodeRows x).mp hrow
    exact ⟨r.command, decode_of_selected hr (selected_iff_masked.mpr h)⟩
  case unique =>
    obtain ⟨r, hr, rfl⟩ := (mem_opcodeRows x).mp hrow
    obtain ⟨r', hr', rfl⟩ := (mem_opcodeRows x).mp hrow'
    obtain ⟨hop, -⟩ := selected_iff_masked.mpr h
    obtain ⟨hop', -⟩ := selected_iff_masked.mpr h'
    rw [row_eq_of_op_eq hr hr' (hop.symm.trans hop')]

/-- Settles O4: each word is evaluated. -/
theorem specWordsDecodeToTheirCommands : Obligations.SpecWordsDecodeToTheirCommands := by
  unfold Obligations.SpecWordsDecodeToTheirCommands
  decide +kernel

end Sys2Proof
end

section
/-! What an illegal word does (spec/30_encoding.md R85), and the pseudo-instruction MASK.TEXT (R89). -/

namespace Sys2Proof.Machine

/-! ### Illegal words -/

theorem runWord_of_unknownOpcode {x : CommandWord} (s : State) (h : decode x = .error .unknownOpcode) :
    runWord x s = .next { s with status := .illegalCommand, errInfo := 0 } := by
  rw [runWord, h]
  rfl

theorem runWord_of_reservedBit {x : CommandWord} (s : State) (h : decode x = .error .reservedBit) :
    runWord x s = .next { s with status := .illegalCommand, errInfo := 1 } := by
  rw [runWord, h]
  rfl

theorem exec_pack_of_wide {w : Byte} (o : BitOrder) (v : Word) {s : State} (h : s.params.wMax < w.toNat) :
    exec (.pack w o v) s = .next { s with status := .illegalCommand, errInfo := 2 } := by
  rw [exec, execPack, gated_of_legal rfl, if_pos h]
  rfl

theorem exec_unpack_of_wide {w : Byte} (o : BitOrder) {s : State} (h : s.params.wMax < w.toNat) :
    exec (.unpack w o) s = .next { s with status := .illegalCommand, errInfo := 2 } := by
  rw [exec, execUnpack, gated_of_legal rfl, if_pos h]
  rfl

/-- A word that selects the row of PACK. -/
theorem decode_eq_pack {x : CommandWord} (h : x &&& 0xFF00FFFE00000000#64 = 0x0100000000000000#64) :
    decode x = .ok (.pack (fieldA x) (orderOfBit (fieldB x)) (fieldImm x)) := by
  have hmask : assembleWord 0xFF 0x00 0xFFFE 0 = 0xFF00FFFE00000000#64 := by decide
  have hmatch : assembleWord 0x01 0 0 0 = 0x0100000000000000#64 := by decide
  rw [← hmask, ← hmatch, selects_iff] at h
  exact decode_of_selected (r := ⟨0x01, 0x00, 0xFFFE, 0, _⟩) (.head _) h

/-- A word that selects the row of UNPACK. -/
theorem decode_eq_unpack {x : CommandWord} (h : x &&& 0xFF00FFFEFFFFFFFF#64 = 0x0200000000000000#64) :
    decode x = .ok (.unpack (fieldA x) (orderOfBit (fieldB x))) := by
  have hmask : assembleWord 0xFF 0x00 0xFFFE 0xFFFFFFFF = 0xFF00FFFEFFFFFFFF#64 := by decide
  have hmatch : assembleWord 0x02 0 0 0 = 0x0200000000000000#64 := by decide
  rw [← hmask, ← hmatch, selects_iff] at h
  exact decode_of_selected (r := ⟨0x02, 0x00, 0xFFFE, 0xFFFFFFFF, _⟩) (.tail _ (.head _)) h

/-- Settles O5: the first two cases are the decoder's two errors, the third is the first check of PACK and of UNPACK. -/
theorem illegalWordWritesOnlyStatus : Obligations.IllegalWordWritesOnlyStatus := by
  intro s x rest hwf hidle hin
  rw [step_takes_first_input hwf hidle hin, takeInput_command]
  refine ⟨fun hunknown => ?unknown, ?reserved, fun hsel hwide => ?width⟩
  case unknown =>
    refine runWord_of_unknownOpcode _ (decode_of_no_row fun r hr hop => ?_)
    exact hunknown _ ((mem_opcodeRows x).mpr ⟨r, hr, rfl⟩) (hop.trans (fieldOp_selector r).symm)
  case reserved =>
    rintro ⟨row, hrow, hop, hbit⟩
    obtain ⟨r, hr, rfl⟩ := (mem_opcodeRows x).mp hrow
    exact runWord_of_reservedBit _
      (decode_of_not_selected hr (hop.trans (fieldOp_selector r)) (mt selected_iff_masked.mp hbit))
  case width =>
    rcases hsel with hpack | hunpack
    · rw [runWord_of_decode _ (decode_eq_pack hpack)]
      exact exec_pack_of_wide _ _ hwide
    · rw [runWord_of_decode _ (decode_eq_unpack hunpack)]
      exact exec_unpack_of_wide _ hwide

/-! ### MASK.TEXT -/

/-- The state with this text in the mask store, as a successful MASK.PUT leaves it (R132). -/
def State.withMaskText (s : State) (text : List Byte) : State :=
  { s with maskPresent := true, mtxt := text, cfgValid := false, status := .ok, errInfo := 0 }

/-- The next command of a program, when the commands before it ended in a state. -/
def thenExec (r : Result) (i : Instr) : Result :=
  match r with
  | .next u => exec i u
  | other => other

@[simp] theorem thenExec_next (s : State) (i : Instr) : thenExec (.next s) i = exec i s := rfl

theorem exec_maskNone (s : State) :
    exec .maskNone s =
      .next { s with maskPresent := false, mtxt := [], cfgValid := false, status := .ok, errInfo := 0 } := by
  rw [exec, execMaskNone, gated_of_legal rfl]
  rfl

/-- MASK.PUT with room in the store (R132). -/
theorem exec_maskPut {s : State} (c : Byte) (h : s.mtxt.length < mtxtCap) :
    exec (.maskPut c) s = .next (s.withMaskText (s.mtxt ++ [c])) := by
  rw [exec, execMaskPut, gated_of_legal rfl, if_pos h]
  rfl

/-- The bytes of a text that the store has room for are appended to it. -/
theorem foldl_maskPut (s : State) (rest text : List Byte) (h : text.length + rest.length ≤ mtxtCap) :
    (rest.map Instr.maskPut).foldl thenExec (.next (s.withMaskText text)) = .next (s.withMaskText (text ++ rest)) := by
  induction rest generalizing text with
  | nil => simp
  | cons c rest ih =>
    rw [List.length_cons] at h
    have hroom : (s.withMaskText text).mtxt.length < mtxtCap := show text.length < mtxtCap by omega
    have hput : exec (.maskPut c) (s.withMaskText text) = .next (s.withMaskText (text ++ [c])) := exec_maskPut c hroom
    rw [List.map_cons, List.foldl_cons, thenExec_next, hput, ih (text ++ [c]) (by simp; omega), List.append_assoc,
      List.singleton_append]

/-- Settles O60: MASK.NONE empties the store, the first MASK.PUT starts the text, and the others append to it. -/
theorem maskTextLoadsItsText : Obligations.MaskTextLoadsItsText := by
  intro s text hlen hne
  obtain ⟨c, rest, rfl⟩ := List.exists_cons_of_ne_nil hne
  show (Instr.maskNone :: Instr.maskPut c :: rest.map Instr.maskPut).foldl thenExec (.next s) =
    .next (s.withMaskText (c :: rest))
  rw [List.foldl_cons, List.foldl_cons, thenExec_next, exec_maskNone, thenExec_next, exec_maskPut c (by simp)]
  exact foldl_maskPut s rest [c] (by simpa [Nat.add_comm] using hlen)

end Sys2Proof.Machine
end

section
/-! `pack` and `unpack` as formulas and as inverses of each other, and the packed mask (spec/40_codec.md R100 to R103;
spec/41_config_encoder.md R125). -/

namespace Sys2Proof.Machine

/-! ### The formulas of R100 and R101 -/

theorem pack_of_le {v w : Nat} (o : BitOrder) (h : 2 ^ w ≤ v) : pack v w o = none := if_neg (Nat.not_lt.mpr h)

theorem packBits_msb_getElem? (v : Nat) {w i : Nat} (h : i < w) :
    (packBits v w .msb)[i]? = some (v.testBit (w - 1 - i)) := by
  simp [packBits, h]

theorem packBits_lsb_getElem? (v : Nat) {w i : Nat} (h : i < w) : (packBits v w .lsb)[i]? = some (v.testBit i) := by
  simp [packBits, h]

/-- Each bit is a digit of base 2, the most significant first. -/
theorem unpack_msb_eq_sum (s : Bits) :
    unpack s .msb = ((List.range s.length).map (fun i => bitValue (s.getD i false) * 2 ^ (s.length - 1 - i))).sum := by
  have hdigit (i : Nat) : (s.map bitValue).getD i 0 = bitValue (s.getD i false) := List.getD_map s false bitValue
  rw [unpack, foldl_digits_eq_ofDigits, ofDigits_reverse_eq_sum, List.length_map]
  simp only [hdigit]

theorem unpack_lsb_eq_sum (s : Bits) :
    unpack s .lsb = ((List.range s.length).map (fun i => bitValue (s.getD i false) * 2 ^ i)).sum := by
  induction s with
  | nil => rfl
  | cons b s ih =>
    have hcons : unpack (b :: s) .lsb = bitValue b + 2 * unpack s .lsb := rfl
    rw [hcons, ih, List.length_cons, List.range_succ_eq_map, ← List.sum_map_mul_left]
    simp [Function.comp_def, pow_succ', Nat.mul_left_comm]

/-- The bits of the sum from the length of the sequence on are 0. -/
theorem unpack_lt (s : Bits) (o : BitOrder) : unpack s o < 2 ^ s.length := by
  have hlsb (s : Bits) : unpack s .lsb < 2 ^ s.length :=
    Nat.lt_pow_two_of_testBit _ fun i hi => by rw [testBit_unpack_lsb, List.getD_eq_default _ _ hi]
  cases o with
  | lsb => exact hlsb s
  | msb => rw [unpack_msb_eq_lsb_reverse, ← List.length_reverse]; exact hlsb s.reverse

/-- Settles O8: the error and the bits of `pack` (R100), the sums of `unpack` (R101) and their bound. -/
theorem packAndUnpackAreTheirFormulas : Obligations.PackAndUnpackAreTheirFormulas := by
  refine ⟨fun v w o => ⟨pack_of_le o, fun h => ⟨_, pack_of_lt o h, packBits_length v w o, fun i hi => ?bit⟩⟩,
    fun s => ⟨unpack_msb_eq_sum s, unpack_lsb_eq_sum s, unpack_lt s⟩⟩
  case bit =>
    cases o with
    | msb => exact packBits_msb_getElem? v hi
    | lsb => exact packBits_lsb_getElem? v hi

/-! ### The laws of R102 -/

/-- Packing in the order of the unpacking gives the sequence back. -/
theorem packBits_unpack (s : Bits) (o : BitOrder) : packBits (unpack s o) s.length o = s := by
  have hlsb (s : Bits) : packBits (unpack s .lsb) s.length .lsb = s := by
    refine List.ext_getElem (packBits_length ..) fun i _ hi => ?_
    simp [packBits, testBit_unpack_lsb, hi]
  cases o with
  | lsb => exact hlsb s
  | msb =>
    rw [packBits_msb_eq_reverse_lsb, unpack_msb_eq_lsb_reverse, ← List.length_reverse, hlsb, List.reverse_reverse]

theorem pack_unpack (s : Bits) (o : BitOrder) : pack (unpack s o) s.length o = some s := by
  rw [pack_of_lt o (unpack_lt s o), packBits_unpack]

theorem pack_lsb_eq_reverse_msb (v w : Nat) : pack v w .lsb = (pack v w .msb).map List.reverse := by
  rcases Nat.lt_or_ge v (2 ^ w) with h | h
  · rw [pack_of_lt _ h, pack_of_lt _ h, packBits_msb_eq_reverse_lsb, Option.map_some, List.reverse_reverse]
  · rw [pack_of_le _ h, pack_of_le _ h, Option.map_none]

/-- Read in the other order, the first bit has the least weight, and it was the most significant. -/
theorem testBit_unpack_lsb_packBits_msb (v : Nat) {w i : Nat} (h : i < w) :
    (unpack (packBits v w .msb) .lsb).testBit i = v.testBit (w - 1 - i) := by
  rw [testBit_unpack_lsb, List.getD_eq_getElem?_getD, packBits_msb_getElem? v h, Option.getD_some]

/-- The two ways to mix the orders give the same value. -/
theorem unpack_msb_packBits_lsb (v w : Nat) :
    unpack (packBits v w .lsb) .msb = unpack (packBits v w .msb) .lsb := by
  rw [unpack_msb_eq_lsb_reverse, packBits_msb_eq_reverse_lsb]

/-- Settles O9: the two inverse laws, the reversal, and the reversed bits of the mixed orders. -/
theorem packUnpackInverseLaws : Obligations.PackUnpackInverseLaws := by
  refine ⟨fun v w o hv => ⟨_, pack_of_lt o hv, ?_⟩, pack_unpack, pack_lsb_eq_reverse_msb, fun v w i hi => ⟨?_, ?_⟩⟩
  · rw [unpack_packBits, Nat.mod_eq_of_lt hv]
  · exact testBit_unpack_lsb_packBits_msb v hi
  · rw [unpack_msb_packBits_lsb, testBit_unpack_lsb_packBits_msb v hi]

/-! ### The packed mask (R103, R125) -/

/-- Row-major placing, for rows of any one length. -/
theorem packmask_getElem? {n row col : Nat} {g : List Bits} (hrows : ∀ l ∈ g, l.length = n) (hcol : col < n) :
    (packmask g)[n * row + col]? = g[row]?.bind (fun l => l[col]?) := by
  induction g generalizing row with
  | nil => rfl
  | cons l g ih =>
    obtain ⟨rfl, hrest⟩ := List.forall_mem_cons.mp hrows
    have hcons : packmask (l :: g) = l ++ packmask g := List.flatten_cons
    rw [hcons]
    cases row with
    | zero => rw [Nat.mul_zero, Nat.zero_add, List.getElem?_append_left hcol]; rfl
    | succ row =>
      have hskip : l.length * (row + 1) + col = l.length + (l.length * row + col) := by rw [Nat.mul_succ]; omega
      rw [hskip, List.getElem?_append_right (Nat.le_add_right ..), Nat.add_sub_cancel_left, ih hrest,
        List.getElem?_cons_succ]

/-- One bit is the same in either order. -/
theorem packBits_bitValue (b : Bool) (o : BitOrder) : packBits (bitValue b) 1 o = [b] := by
  cases b <;> cases o <;> rfl

theorem packmask_eq_flatMap_packBits (g : List Bits) (o : BitOrder) :
    packmask g = g.flatMap (fun row => row.flatMap (fun cell => packBits (bitValue cell) 1 o)) := by
  simp [packmask, packBits_bitValue]

theorem maskRegion_of_grid (p : Params) {text : List Byte} {g : List Bits} (h : parseMask text = .ok g) :
    maskRegion p true text = .ok (packmask g) := by
  simp [maskRegion, h]

theorem maskRegion_of_error (p : Params) {text : List Byte} {info : Word} (h : parseMask text = .error info) :
    maskRegion p true text = .error info := by
  simp [maskRegion, h]

/-- Settles O11: the placing and the order of the cells (R103), and the three sources of the mask region (R125). -/
theorem maskRegionIsPatternOrRowMajorGrid : Obligations.MaskRegionIsPatternOrRowMajorGrid := by
  refine ⟨fun g hlen hrows => ⟨?_, fun row col _ hcol => packmask_getElem? hrows hcol, packmask_eq_flatMap_packBits g⟩,
    rfl, fun p text => ⟨rfl, fun _ => maskRegion_of_grid p, fun _ => maskRegion_of_error p⟩⟩
  rw [packmask_length hrows, hlen]

end Sys2Proof.Machine
end

section
/-! The commands of the BitField Codec (spec/40_codec.md R105 to R110): each outcome of a command as one equation. -/

namespace Sys2Proof.Machine

/-- A command's word is the only one that decodes to it (R85, R87). -/
theorem decode_eq_ok_iff_encode {x : CommandWord} {i : Instr} : decode x = .ok i ↔ x = encode i :=
  ⟨fun h => (encodeInvertsDecode x i h).symm, fun h => h ▸ decodeInvertsEncode i⟩

/-! ### PACK (R105) -/

section
variable {w : Byte} {v : Word} {s : State} (o : BitOrder) (hw : w.toNat ≤ s.params.wMax)
include hw

theorem exec_pack_of_overflow (hv : 2 ^ w.toNat ≤ v.toNat) :
    exec (.pack w o v) s = .next { s with status := .overflowError, errInfo := v } := by
  rw [exec, execPack, gated_of_legal rfl, if_neg (Nat.not_lt.mpr hw), pack_of_le o hv]
  rfl

/-- A value that fits its width is appended when there is room for it. -/
theorem exec_pack_of_fits (hv : v.toNat < 2 ^ w.toNat) :
    exec (.pack w o v) s =
      if s.params.bbCap < s.bb.length + w.toNat then faulted s .bufferError 1
      else succeeded { s with bb := s.bb ++ packBits v.toNat w.toNat o } := by
  rw [exec, execPack, gated_of_legal rfl, if_neg (Nat.not_lt.mpr hw), pack_of_lt o hv]

theorem exec_pack_of_full (hv : v.toNat < 2 ^ w.toNat) (hfull : s.params.bbCap < s.bb.length + w.toNat) :
    exec (.pack w o v) s = .next { s with status := .bufferError, errInfo := 1 } := by
  rw [exec_pack_of_fits o hw hv, if_pos hfull]
  rfl

theorem exec_pack_of_room (hv : v.toNat < 2 ^ w.toNat) (hroom : s.bb.length + w.toNat ≤ s.params.bbCap) :
    exec (.pack w o v) s =
      .next { s with bb := s.bb ++ packBits v.toNat w.toNat o, status := .ok, errInfo := 0 } := by
  rw [exec_pack_of_fits o hw hv, if_neg (Nat.not_lt.mpr hroom)]
  rfl

end

/-- Settles O18: the word, the three faults in the order of their checks, and the append. -/
theorem packCommandRule : Obligations.PackCommandRule := fun _ o v _ =>
  ⟨fun _ => decode_eq_ok_iff_encode, exec_pack_of_wide o v, exec_pack_of_overflow o, exec_pack_of_full o,
    exec_pack_of_room o⟩

/-! ### UNPACK (R107) -/

section
variable {w : Byte} {s : State} (o : BitOrder) (hw : w.toNat ≤ s.params.wMax)
include hw

theorem exec_unpack_of_short (hlen : s.bb.length < w.toNat) :
    exec (.unpack w o) s = .next { s with status := .bufferError, errInfo := 0 } := by
  rw [exec, execUnpack, gated_of_legal rfl, if_neg (Nat.not_lt.mpr hw), if_pos hlen]
  rfl

theorem exec_unpack_of_enough (hlen : w.toNat ≤ s.bb.length) :
    exec (.unpack w o) s =
      .next { s with
        r := { s.r with r0 := BitVec.ofNat 32 (unpack (s.bb.take w.toNat) o) }
        bb := s.bb.drop w.toNat
        status := .ok
        errInfo := 0 } := by
  rw [exec, execUnpack, gated_of_legal rfl, if_neg (Nat.not_lt.mpr hw), if_neg (Nat.not_lt.mpr hlen)]
  rfl

end

/-- Settles O19: the word, the two faults in the order of their checks, and the read that removes its bits. -/
theorem unpackCommandRule : Obligations.UnpackCommandRule := fun _ o _ =>
  ⟨fun _ => decode_eq_ok_iff_encode, exec_unpack_of_wide o, exec_unpack_of_short o, exec_unpack_of_enough o⟩

/-! ### BB.CLR and MASK.PACK (R109, R110) -/

theorem exec_bbClr (s : State) : exec .bbClr s = .next { s with bb := [], status := .ok, errInfo := 0 } := by
  rw [exec, execBbClr, gated_of_legal rfl]
  rfl

section
variable {s : State}

theorem exec_maskPack_of_error {info : Word} (h : maskRegion s.params s.maskPresent s.mtxt = .error info) :
    exec .maskPack s = .next { s with status := .maskShapeError, errInfo := info } := by
  rw [exec, execMaskPack, gated_of_legal rfl, h]
  rfl

variable {m : Bits} (hm : maskRegion s.params s.maskPresent s.mtxt = .ok m)
include hm

/-- The mask region is appended when there is room for it. -/
theorem exec_maskPack_of_ok :
    exec .maskPack s =
      if s.params.bbCap < s.bb.length + maskBits then faulted s .bufferError 1
      else succeeded { s with bb := s.bb ++ m } := by
  rw [exec, execMaskPack, gated_of_legal rfl, hm]

theorem exec_maskPack_of_full (hfull : s.params.bbCap < s.bb.length + maskBits) :
    exec .maskPack s = .next { s with status := .bufferError, errInfo := 1 } := by
  rw [exec_maskPack_of_ok hm, if_pos hfull]
  rfl

theorem exec_maskPack_of_room (hroom : s.bb.length + maskBits ≤ s.params.bbCap) :
    exec .maskPack s = .next { s with bb := s.bb ++ m, status := .ok, errInfo := 0 } := by
  rw [exec_maskPack_of_ok hm, if_neg (Nat.not_lt.mpr hroom)]
  rfl

end

/-- Settles O20: the two words, the one outcome of BB.CLR, and the three of MASK.PACK. -/
theorem bbClrAndMaskPackCommandRules : Obligations.BbClrAndMaskPackCommandRules :=
  ⟨⟨fun _ => decode_eq_ok_iff_encode, exec_bbClr⟩,
    fun _ => decode_eq_ok_iff_encode,
    fun _ => ⟨fun _ => exec_maskPack_of_error, fun _ => exec_maskPack_of_full, fun _ => exec_maskPack_of_room⟩⟩

/-! ### The round trip (R108) -/

/-- The widest operand of PACK fits an empty bit buffer (R12). -/
theorem params_wf_wMax_le_bbCap {p : Params} (h : p.wf = true) : p.wMax ≤ p.bbCap := by
  simp only [Params.wf, Bool.and_eq_true, decide_eq_true_eq] at h
  have hwidth : p.wMax ≤ 32 := by tauto
  have hcells : 35 * 35 ≤ p.bbCap := by tauto
  omega

/-- Settles O21: an empty BB has room for the bits, they are all that UNPACK finds there, and their value is `v`. -/
theorem packThenUnpackReturnsTheValue : Obligations.PackThenUnpackReturnsTheValue := by
  intro w o v s t hwf hw hv hbb hpack
  have hroom : s.bb.length + w.toNat ≤ s.params.bbCap := by
    rw [hbb, List.length_nil, Nat.zero_add]
    exact hw.trans (params_wf_wMax_le_bbCap hwf)
  rw [exec_pack_of_room o hw hv hroom] at hpack
  injection hpack with ht
  have hbits : t.bb = packBits v.toNat w.toNat o := by rw [← ht, hbb, List.nil_append]
  have hlen : t.bb.length = w.toNat := by rw [hbits, packBits_length]
  have hvalue : unpack (t.bb.take w.toNat) o = v.toNat := by
    rw [List.take_of_length_le hlen.le, hbits, unpack_packBits, Nat.mod_eq_of_lt hv]
  have hempty : t.bb.drop w.toNat = s.bb := by rw [List.drop_of_length_le hlen.le, hbb]
  rw [exec_unpack_of_enough o (ht ▸ hw) hlen.ge, hvalue, hempty, BitVec.ofNat_toNat, BitVec.setWidth_eq, ← ht]

end Sys2Proof.Machine
end

section
/-! The mask text and its parser (spec/41_config_encoder.md R124; spec/60_exceptions.md R221). -/

namespace Sys2Proof.Machine

/-! ### The pieces of a text -/

/-- Splitting at the newlines is the library's split. -/
theorem splitLines_eq_splitOn (text : List Byte) : splitLines text = text.splitOn 0x0A#8 := by
  induction text with
  | nil => rfl
  | cons c text ih =>
    rw [List.splitOn_cons_eq_if_modifyHead, splitLines, ih]
    by_cases hc : c = 0x0A#8
    · simp [hc]
    · rcases hpieces : text.splitOn 0x0A#8 with _ | ⟨l, ls⟩
      · exact absurd hpieces (List.splitOn_ne_nil _ _)
      · simp [hc]

theorem maskPieces_append_newline (text : List Byte) : maskPieces (text ++ [0x0A#8]) = text.splitOn 0x0A#8 := by
  have hlast : (text ++ [0x0A#8]).getLast? = some 0x0A#8 := List.getLast?_concat
  rw [maskPieces, if_pos hlast, splitLines_eq_splitOn, List.splitOn_append_cons_self, List.splitOn_nil,
    List.dropLast_concat]

theorem maskPieces_of_getLast?_ne {text : List Byte} (h : text.getLast? ≠ some 0x0A#8) :
    maskPieces text = text.splitOn 0x0A#8 := by
  rw [maskPieces, if_neg h, splitLines_eq_splitOn]

/-- The pieces joined again are the text, but for one trailing newline. -/
theorem eq_intercalate_maskPieces (text : List Byte) :
    text = List.intercalate [0x0A#8] (maskPieces text) ∨
      text = List.intercalate [0x0A#8] (maskPieces text) ++ [0x0A#8] := by
  by_cases hlast : text.getLast? = some 0x0A#8
  · obtain ⟨body, rfl⟩ := List.getLast?_eq_some_iff.mp hlast
    rw [maskPieces_append_newline, List.intercalate_splitOn]
    exact .inr rfl
  · rw [maskPieces_of_getLast?_ne hlast, List.intercalate_splitOn]
    exact .inl rfl

/-- Non-empty lines without a newline are the pieces of their joined text, whether or not a newline ends it. -/
theorem maskPieces_eq_lines {text : List Byte} {lines : List (List Byte)} (hne : lines ≠ [])
    (hlines : ∀ l ∈ lines, l ≠ [] ∧ 0x0A#8 ∉ l)
    (htext : text = List.intercalate [0x0A#8] lines ∨ text = List.intercalate [0x0A#8] lines ++ [0x0A#8]) :
    maskPieces text = lines := by
  have hsplit : (List.intercalate [0x0A#8] lines).splitOn 0x0A#8 = lines :=
    List.splitOn_intercalate _ (fun l hl => (hlines l hl).2) hne
  rcases htext with rfl | rfl
  · rw [maskPieces_of_getLast?_ne, hsplit]
    intro hlast
    obtain ⟨body, hbody⟩ := List.getLast?_eq_some_iff.mp hlast
    rw [hbody, List.splitOn_append_cons_self, List.splitOn_nil] at hsplit
    have hempty : [] ∈ lines := hsplit ▸ List.mem_append_right _ (List.mem_singleton.mpr rfl)
    exact (hlines [] hempty).1 rfl
  · rw [maskPieces_append_newline, hsplit]

/-! ### The outcomes of `parse_mask` -/

/-- A line of a mask text: 35 characters `0` or `1` (R124). -/
def IsMaskRow (l : List Byte) : Prop := l.length = nCol ∧ ∀ c ∈ l, c = 0x30#8 ∨ c = 0x31#8

/-- The cells that lines of `0` and `1` stand for (R124). -/
def gridOfLines (lines : List (List Byte)) : List Bits := lines.map (fun l => l.map (fun c => c == 0x31#8))

/-- A mask row has cells, and a newline is none of its characters. -/
theorem IsMaskRow.ne_nil_and_no_newline {l : List Byte} (h : IsMaskRow l) : l ≠ [] ∧ 0x0A#8 ∉ l := by
  obtain ⟨hlen, hchars⟩ := h
  exact ⟨fun hnil => by simp [hnil] at hlen, fun hmem => absurd (hchars _ hmem) (by decide)⟩

theorem any_badMaskChar_eq_true_iff {l : List Byte} :
    l.any badMaskChar = true ↔ ∃ c ∈ l, c ≠ 0x30#8 ∧ c ≠ 0x31#8 := by
  simp [badMaskChar]

theorem any_badMaskChar_eq_false_iff {l : List Byte} :
    l.any badMaskChar = false ↔ ∀ c ∈ l, c = 0x30#8 ∨ c = 0x31#8 := by
  simp [badMaskChar, or_iff_not_imp_left]

section
variable {text : List Byte} {row : Nat}

theorem parseMask_of_count (h : (maskPieces text).length ≠ nRow) :
    parseMask text = .error (shapeInfo 1 (min (maskPieces text).length 255)) := if_pos h

variable (hcount : (maskPieces text).length = nRow)
include hcount

theorem parseMask_of_length (hrow : (maskPieces text).findIdx? (fun l => l.length != nCol) = some row) :
    parseMask text = .error (shapeInfo 2 row) := by
  rw [parseMask, if_neg (not_not.mpr hcount), hrow]

theorem parseMask_of_character (hlen : ∀ l ∈ maskPieces text, l.length = nCol)
    (hrow : (maskPieces text).findIdx? (fun l => l.any badMaskChar) = some row) :
    parseMask text = .error (shapeInfo 3 row) := by
  have hlens : (maskPieces text).findIdx? (fun l => l.length != nCol) = none :=
    List.findIdx?_eq_none_iff.mpr fun l hl => by simp [hlen l hl]
  rw [parseMask, if_neg (not_not.mpr hcount), hlens, hrow]

theorem parseMask_of_rows (hrows : ∀ l ∈ maskPieces text, IsMaskRow l) :
    parseMask text = .ok (gridOfLines (maskPieces text)) := by
  have hlens : (maskPieces text).findIdx? (fun l => l.length != nCol) = none :=
    List.findIdx?_eq_none_iff.mpr fun l hl => by simp [(hrows l hl).1]
  have hchars : (maskPieces text).findIdx? (fun l => l.any badMaskChar) = none :=
    List.findIdx?_eq_none_iff.mpr fun l hl => any_badMaskChar_eq_false_iff.mpr (hrows l hl).2
  rw [parseMask, if_neg (not_not.mpr hcount), hlens, hchars, gridOfLines]

end

/-- `parse_mask` accepts the texts whose pieces are 35 mask rows, and gives their cells. -/
theorem parseMask_eq_ok_iff {text : List Byte} {g : List Bits} :
    parseMask text = .ok g ↔
      (maskPieces text).length = nRow ∧ (∀ l ∈ maskPieces text, IsMaskRow l) ∧ g = gridOfLines (maskPieces text) := by
  constructor
  · intro h
    unfold parseMask at h
    split at h
    next => cases h
    next hcount =>
      split at h
      next => cases h
      next hlens =>
        split at h
        next => cases h
        next hchars =>
          rw [List.findIdx?_eq_none_iff] at hlens hchars
          cases h
          exact ⟨not_not.mp hcount,
            fun l hl => ⟨by simpa using hlens l hl, any_badMaskChar_eq_false_iff.mp (hchars l hl)⟩, rfl⟩
  · rintro ⟨hcount, hrows, rfl⟩
    exact parseMask_of_rows hcount hrows

/-! ### Which row and which reason (R221) -/

/-- The two fields of the information word of a MaskShapeError, as one number (R221). -/
theorem shapeInfo_eq {reason detail : Nat} (h : detail < 256) :
    shapeInfo reason detail = BitVec.ofNat 32 (256 * reason + detail) := by
  have hfields : 256 * reason + detail = 256 * reason ||| detail := Nat.two_pow_add_eq_or_of_lt (i := 8) h reason
  have hshift : BitVec.ofNat 32 reason <<< 8 = BitVec.ofNat 32 (256 * reason) := by
    refine BitVec.eq_of_toNat_eq ?_
    simp [Nat.shiftLeft_eq]
    omega
  rw [shapeInfo, hfields, BitVec.ofNat_or, hshift]

/-- The first row with a property, by the rows' indices. -/
theorem findIdx?_eq_some_of_getD {p : List Byte → Bool} {rows : List (List Byte)} {row : Nat}
    (hrow : row < rows.length) (hp : p (rows.getD row []) = true)
    (hbefore : ∀ k, k < row → p (rows.getD k []) = false) : rows.findIdx? p = some row := by
  refine List.findIdx?_eq_some_iff_getElem.mpr ⟨hrow, ?_, fun k hk => ?_⟩
  · rwa [List.getD_eq_getElem _ _ hrow] at hp
  · have hk' := hbefore k hk
    rw [List.getD_eq_getElem _ _ (hk.trans hrow)] at hk'
    simp [hk']

/-! ### The length of a text that parses -/

theorem intercalate_newline_length {n : Nat} {lines : List (List Byte)} (hne : lines ≠ [])
    (hlines : ∀ l ∈ lines, l.length = n) :
    (List.intercalate [0x0A#8] lines).length + 1 = lines.length * (n + 1) := by
  induction lines with
  | nil => exact absurd rfl hne
  | cons l lines ih =>
    obtain ⟨hl, hrest⟩ := List.forall_mem_cons.mp hlines
    by_cases hlast : lines = []
    · simp [hlast, hl]
    · rw [List.intercalate_cons_of_ne_nil hlast, List.length_append, List.length_append, List.length_singleton, hl,
        Nat.add_assoc, ih hlast hrest, List.length_cons, Nat.add_mul, Nat.one_mul, Nat.add_comm]

/-- 35 rows, 34 newlines between them, and one that may end the text (R132). -/
theorem length_le_of_parseMask_eq_ok {text : List Byte} {g : List Bits} (h : parseMask text = .ok g) :
    text.length ≤ 1260 := by
  obtain ⟨hcount, hrows, -⟩ := parseMask_eq_ok_iff.mp h
  have hne : maskPieces text ≠ [] := List.ne_nil_of_length_pos (by simp [hcount])
  have hlen := intercalate_newline_length hne fun l hl => (hrows l hl).1
  have hsize : nRow * (nCol + 1) = 1260 := rfl
  rw [hcount, hsize] at hlen
  have htext := (eq_intercalate_maskPieces text).imp (congrArg List.length) (congrArg List.length)
  rw [List.length_append, List.length_singleton] at htext
  omega

/-! ### The statements -/

/-- Settles O13: the lines are the pieces of the text, which joined again give the text but for a trailing newline. -/
theorem parseMaskAcceptsExactlyTheGrids : Obligations.ParseMaskAcceptsExactlyTheGrids := by
  intro text g
  rw [parseMask_eq_ok_iff]
  constructor
  · rintro ⟨hcount, hrows, hgrid⟩
    exact ⟨maskPieces text, hcount, hrows, eq_intercalate_maskPieces text, hgrid⟩
  · rintro ⟨lines, hcount, hrows, htext, hgrid⟩
    have hne : lines ≠ [] := List.ne_nil_of_length_pos (by simp [hcount])
    have hpieces : maskPieces text = lines :=
      maskPieces_eq_lines hne (fun l hl => IsMaskRow.ne_nil_and_no_newline (hrows l hl)) htext
    rw [hpieces]
    exact ⟨hcount, hrows, hgrid⟩

/-- Settles O14: each check finds the first row that fails it, once the checks before it have passed. -/
theorem parseMaskReportsTheFirstReason : Obligations.ParseMaskReportsTheFirstReason := by
  refine fun text => ⟨fun hcount => ?count, fun row hrow hcount hbefore hlen => ?length,
    fun row hrow hcount hlens hbefore hbad => ?character⟩
  case count =>
    rw [parseMask_of_count hcount, shapeInfo_eq (by omega)]
  case length =>
    have hfirst : (maskPieces text).findIdx? (fun l => l.length != nCol) = some row :=
      findIdx?_eq_some_of_getD (by omega) (bne_iff_ne.mpr hlen) fun k hk => bne_eq_false_iff_eq.mpr (hbefore k hk)
    rw [parseMask_of_length hcount hfirst, shapeInfo_eq (by omega)]
  case character =>
    have hfirst : (maskPieces text).findIdx? (fun l => l.any badMaskChar) = some row :=
      findIdx?_eq_some_of_getD (by omega) (any_badMaskChar_eq_true_iff.mpr hbad)
        fun k hk => any_badMaskChar_eq_false_iff.mpr (hbefore k hk)
    rw [parseMask_of_character hcount hlens hfirst, shapeInfo_eq (by omega)]

end Sys2Proof.Machine
end

section
/-! The configuration bitstream slot by slot (spec/41_config_encoder.md R126 to R128). -/

namespace Sys2Proof.Machine

/-! ### The slots of a half of `LAYOUT`, row by row -/

@[simp] theorem rowsWidth_cons (row : LayoutRow) (rows : List LayoutRow) :
    rowsWidth (row :: rows) = row.width + rowsWidth rows := List.sum_cons

@[simp] theorem defaultRows_cons (o : BitOrder) (row : LayoutRow) (rows : List LayoutRow) :
    defaultRows o (row :: rows) = packBits row.defaultCode row.width o ++ defaultRows o rows := List.flatMap_cons

theorem rowsTile_cons_iff {start : Nat} {row : LayoutRow} {rows : List LayoutRow} :
    rowsTile start (row :: rows) = true ↔ row.offset = start ∧ rowsTile (start + row.width) rows = true := by
  simp [rowsTile]

theorem rowsWf_defaultCode_lt {wMax start : Nat} {rows : List LayoutRow} (h : rowsWf wMax start rows = true) :
    ∀ row ∈ rows, row.defaultCode < 2 ^ row.width := by
  simp only [rowsWf, Bool.and_eq_true, List.all_eq_true, decide_eq_true_eq] at h
  obtain ⟨⟨⟨-, hrows⟩, -⟩, -⟩ := h
  exact fun row hrow => (hrows row hrow).2

/-- Every default code fits its slot (R121). -/
theorem params_wf_defaultCode_lt {p : Params} (h : p.wf = true) :
    (∀ row ∈ p.layout.bias, row.defaultCode < 2 ^ row.width) ∧
      ∀ row ∈ p.layout.dac, row.defaultCode < 2 ^ row.width := by
  simp only [Params.wf, Layout.wf, Bool.and_eq_true] at h
  have hbias : rowsWf p.wMax 0 p.layout.bias = true := by tauto
  have hdac : rowsWf p.wMax p.layout.biasEnd p.layout.dac = true := by tauto
  exact ⟨rowsWf_defaultCode_lt hbias, rowsWf_defaultCode_lt hdac⟩

/-! ### Overrides that fit (R30, R52 item 3) -/

theorem overridesFit_cons_iff {row : LayoutRow} {rows : List LayoutRow} {x : Option Nat} {ovr : List (Option Nat)} :
    overridesFit (row :: rows) (x :: ovr) = true ↔
      (∀ v, x = some v → v < 2 ^ row.width) ∧ overridesFit rows ovr = true := by
  cases x <;> simp [overridesFit]

theorem overridesFit_length {rows : List LayoutRow} {ovr : List (Option Nat)} (h : overridesFit rows ovr = true) :
    ovr.length = rows.length := by
  induction rows generalizing ovr with
  | nil =>
    cases ovr with
    | nil => rfl
    | cons x ovr => cases h
  | cons row rows ih =>
    cases ovr with
    | nil => cases h
    | cons x ovr => rw [List.length_cons, List.length_cons, ih (overridesFit_cons_iff.mp h).2]

theorem lt_of_overridesFit {rows : List LayoutRow} {ovr : List (Option Nat)} {k v : Nat} {row : LayoutRow}
    (h : overridesFit rows ovr = true) (hrow : rows[k]? = some row) (hv : ovr[k]? = some (some v)) :
    v < 2 ^ row.width := by
  induction rows generalizing ovr k with
  | nil => cases hrow
  | cons r rows ih =>
    cases ovr with
    | nil => cases hv
    | cons x ovr =>
      obtain ⟨hfirst, hrest⟩ := overridesFit_cons_iff.mp h
      cases k with
      | zero => cases hrow; cases hv; exact hfirst v rfl
      | succ k => exact ih hrest hrow hv

/-- The code of a row fits its slot, as an override or as a default. -/
theorem code_lt_of_overridesFit {rows : List LayoutRow} {ovr : List (Option Nat)} {k : Nat} {row : LayoutRow}
    (h : overridesFit rows ovr = true) (hrow : rows[k]? = some row) (hdefault : row.defaultCode < 2 ^ row.width) :
    (ovr[k]?).join.getD row.defaultCode < 2 ^ row.width := by
  rcases hx : ovr[k]? with _ | _ | v
  · exact hdefault
  · exact hdefault
  · exact lt_of_overridesFit h hrow hx

/-! ### The middle of three parts of a bit sequence (R60) -/

section
variable {before old new after : Bits}

theorem memRead_middle {off n : Nat} (hoff : before.length = off) (hold : old.length = n) :
    memRead (before ++ old ++ after) off n = old := by
  subst hoff hold
  simp [memRead]

theorem memWrite_middle {off n : Nat} (hoff : before.length = off) (hold : old.length = n) :
    memWrite (before ++ old ++ after) off n new = before ++ new ++ after := by
  subst hoff hold
  simp [memWrite]

theorem getElem?_outside_middle (hlen : new.length = old.length) {i : Nat}
    (hi : i < before.length ∨ before.length + old.length ≤ i) :
    (before ++ new ++ after)[i]? = (before ++ old ++ after)[i]? := by
  rcases hi with hi | hi
  · simp only [List.append_assoc, List.getElem?_append_left hi]
  · rw [List.getElem?_append_right (by simpa [hlen] using hi), List.getElem?_append_right (by simpa using hi),
      List.length_append, List.length_append, hlen]

end

/-! ### The codes of a half -/

/-- The code of every row of a half, its override or else its default, each packed in its slot (R126). -/
def codeRows (o : BitOrder) : List LayoutRow → List (Option Nat) → Bits
  | row :: rows, x :: ovr => packBits (x.getD row.defaultCode) row.width o ++ codeRows o rows ovr
  | _, _ => []

@[simp] theorem codeRows_cons (o : BitOrder) (row : LayoutRow) (rows : List LayoutRow) (x : Option Nat)
    (ovr : List (Option Nat)) :
    codeRows o (row :: rows) (x :: ovr) = packBits (x.getD row.defaultCode) row.width o ++ codeRows o rows ovr := rfl

theorem codeRows_replicate_none (o : BitOrder) (rows : List LayoutRow) :
    codeRows o rows (List.replicate rows.length none) = defaultRows o rows := by
  induction rows with
  | nil => rfl
  | cons row rows ih =>
    rw [List.length_cons, List.replicate_succ, codeRows_cons, ih, Option.getD_none, defaultRows_cons]

theorem codeRows_length (o : BitOrder) {rows : List LayoutRow} {ovr : List (Option Nat)}
    (h : ovr.length = rows.length) : (codeRows o rows ovr).length = rowsWidth rows := by
  induction rows generalizing ovr with
  | nil => rfl
  | cons row rows ih =>
    cases ovr with
    | nil => cases h
    | cons x ovr => rw [codeRows_cons, List.length_append, packBits_length, ih (Nat.succ.inj h), rowsWidth_cons]

/-- The loop of R126 over the slots of a half turns the defaults into the codes, slot after slot, because the slots tile
(R121). -/
theorem writeOverrides_defaultRows (o : BitOrder) {rows : List LayoutRow} {ovr : List (Option Nat)} {before : Bits}
    (after : Bits) (htile : rowsTile before.length rows = true) (hlen : ovr.length = rows.length) :
    writeOverrides o rows ovr (before ++ defaultRows o rows ++ after) = before ++ codeRows o rows ovr ++ after := by
  induction rows generalizing ovr before with
  | nil => rfl
  | cons row rows ih =>
    cases ovr with
    | nil => cases hlen
    | cons x ovr =>
      obtain ⟨hoff, htile⟩ := rowsTile_cons_iff.mp htile
      have hfirst :
          writeOverrides o (row :: rows) (x :: ovr) (before ++ defaultRows o (row :: rows) ++ after) =
            writeOverrides o rows ovr
              (before ++ packBits (x.getD row.defaultCode) row.width o ++ defaultRows o rows ++ after) := by
        simp only [defaultRows_cons, ← List.append_assoc]
        cases x with
        | none => rfl
        | some v =>
          rw [writeOverrides, List.append_assoc _ _ after, memWrite_middle hoff.symm (packBits_length ..),
            ← List.append_assoc]
          rfl
      rw [hfirst, ih (by simpa using htile) (Nat.succ.inj hlen), codeRows_cons, ← List.append_assoc before]

/-- One slot among the others: what an override of its row changes. -/
theorem codeRows_set (o : BitOrder) {rows : List LayoutRow} {ovr : List (Option Nat)} {start k : Nat} {row : LayoutRow}
    (htile : rowsTile start rows = true) (hlen : ovr.length = rows.length) (hrow : rows[k]? = some row) :
    ∃ before after, start + before.length = row.offset ∧
      ∀ x, codeRows o rows (ovr.set k x) = before ++ packBits (x.getD row.defaultCode) row.width o ++ after := by
  induction rows generalizing ovr start k with
  | nil => cases hrow
  | cons r rows ih =>
    cases ovr with
    | nil => cases hlen
    | cons y ovr =>
      obtain ⟨hoff, htile⟩ := rowsTile_cons_iff.mp htile
      cases k with
      | zero =>
        cases hrow
        exact ⟨[], codeRows o rows ovr, hoff.symm, fun x => rfl⟩
      | succ k =>
        obtain ⟨before, after, hbefore, hset⟩ := ih htile (Nat.succ.inj hlen) hrow
        refine ⟨packBits (y.getD r.defaultCode) r.width o ++ before, after, ?_, fun x => ?_⟩
        · rw [List.length_append, packBits_length, ← Nat.add_assoc, hbefore]
        · rw [List.set_cons_succ, codeRows_cons, hset x]
          simp only [List.append_assoc]

section
variable (o : BitOrder) {rows : List LayoutRow} {ovr : List (Option Nat)} {before : Bits} (after : Bits) {k : Nat}
  {row : LayoutRow} (htile : rowsTile before.length rows = true) (hrow : rows[k]? = some row)
include htile hrow

/-- The slot of a row in the whole bitstream: its code stands at its offset, and an override of it changes nothing
else. -/
theorem codeRows_slot (hlen : ovr.length = rows.length) :
    ∃ left right, left.length = row.offset ∧
      before ++ codeRows o rows ovr ++ after =
        left ++ packBits ((ovr[k]?).join.getD row.defaultCode) row.width o ++ right ∧
      ∀ x, before ++ codeRows o rows (ovr.set k x) ++ after =
        left ++ packBits (x.getD row.defaultCode) row.width o ++ right := by
  obtain ⟨left, right, hleft, hset⟩ := codeRows_set o htile hlen hrow
  obtain ⟨hrowLt, -⟩ := List.getElem?_eq_some_iff.mp hrow
  have hk : k < ovr.length := hlen ▸ hrowLt
  have hslot (x : Option Nat) : before ++ codeRows o rows (ovr.set k x) ++ after =
      before ++ left ++ packBits (x.getD row.defaultCode) row.width o ++ (right ++ after) := by
    rw [hset x]
    simp only [List.append_assoc]
  refine ⟨before ++ left, right ++ after, by rw [List.length_append, hleft], ?_, hslot⟩
  rw [List.getElem?_eq_getElem hk, Option.join_some, ← hslot, List.set_getElem_self]

/-- The slot of a row holds the pack of its code, which cannot fail (R126). -/
theorem pack_eq_memRead_codeRows (hfit : overridesFit rows ovr = true)
    (hdefault : ∀ r ∈ rows, r.defaultCode < 2 ^ r.width) :
    pack ((ovr[k]?).join.getD row.defaultCode) row.width o =
      some (memRead (before ++ codeRows o rows ovr ++ after) row.offset row.width) := by
  obtain ⟨left, right, hleft, hself, -⟩ := codeRows_slot o after htile hrow (overridesFit_length hfit)
  rw [hself, memRead_middle hleft (packBits_length ..)]
  exact pack_of_lt o (code_lt_of_overridesFit hfit hrow (hdefault row (List.mem_of_getElem? hrow)))

/-- Outside the slot of a row nothing depends on its override (R128). -/
theorem getElem?_codeRows_set (hlen : ovr.length = rows.length) (x : Option Nat) {i : Nat}
    (hi : i < row.offset ∨ row.offset + row.width ≤ i) :
    (before ++ codeRows o rows (ovr.set k x) ++ after)[i]? = (before ++ codeRows o rows ovr ++ after)[i]? := by
  obtain ⟨left, right, hleft, hself, hset⟩ := codeRows_slot o after htile hrow hlen
  rw [hself, hset x]
  refine getElem?_outside_middle (by rw [packBits_length, packBits_length]) ?_
  rwa [packBits_length, hleft]

end

/-! ### `encode` -/

theorem encodeConfig_of_error {p : Params} (ob od : List (Option Nat)) {present : Bool} {text : List Byte} {info : Word}
    (h : maskRegion p present text = .error info) : encodeConfig p ob od present text = .error info := by
  simp [encodeConfig, h]

/-- The mask region follows the codes of the two halves (R122). -/
theorem codeRows_append_length {p : Params} {ob od : List (Option Nat)} (hob : ob.length = p.layout.bias.length)
    (hod : od.length = p.layout.dac.length) :
    (codeRows p.orderCfg p.layout.bias ob ++ codeRows p.orderCfg p.layout.dac od).length = p.layout.maskOff := by
  rw [List.length_append, codeRows_length _ hob, codeRows_length _ hod, Layout.maskOff, Layout.biasEnd]

section
variable {p : Params} {ob od : List (Option Nat)} {present : Bool} {text : List Byte} (hwf : p.wf = true)
  (hob : ob.length = p.layout.bias.length) (hod : od.length = p.layout.dac.length)
include hwf hob hod

/-- The bitstream is the codes of the bias half, those of the DAC half, and the mask region (R126). -/
theorem encodeConfig_of_ok {m : Bits} (hm : maskRegion p present text = .ok m) :
    encodeConfig p ob od present text =
      .ok (codeRows p.orderCfg p.layout.bias ob ++ codeRows p.orderCfg p.layout.dac od ++ m) := by
  obtain ⟨hpattern, hbias, hdac⟩ := params_wf_layout hwf
  have hbiasLen : (codeRows p.orderCfg p.layout.bias ob).length = p.layout.biasEnd := codeRows_length _ hob
  have hbiasLoop :
      writeOverrides p.orderCfg p.layout.bias ob (defaultBits p) =
        codeRows p.orderCfg p.layout.bias ob ++ defaultRows p.orderCfg p.layout.dac ++ p.analogPattern := by
    rw [defaultBits, List.append_assoc, List.append_assoc]
    exact writeOverrides_defaultRows p.orderCfg (before := []) _ hbias hob
  have hregion := memWrite_middle (new := m) (after := []) (codeRows_append_length hob hod) hpattern
  rw [List.append_nil, List.append_nil] at hregion
  simp only [encodeConfig, hm]
  rw [hbiasLoop, writeOverrides_defaultRows p.orderCfg _ (hbiasLen.symm ▸ hdac) hod, hregion]

theorem exists_of_encodeConfig_eq_ok {s : Bits} (h : encodeConfig p ob od present text = .ok s) :
    ∃ m, maskRegion p present text = .ok m ∧
      s = codeRows p.orderCfg p.layout.bias ob ++ codeRows p.orderCfg p.layout.dac od ++ m := by
  rcases hm : maskRegion p present text with info | m
  · rw [encodeConfig_of_error ob od hm] at h
    cases h
  · rw [encodeConfig_of_ok hwf hob hod hm] at h
    cases h
    exact ⟨m, rfl, rfl⟩

end

/-! ### The statements -/

/-- Settles O15: each half is read out of the concatenation at its own start, and the mask region is its end. -/
theorem encodeFillsEverySlot : Obligations.EncodeFillsEverySlot := by
  intro p ob od present text hwf hob hod
  refine ⟨fun info => encodeConfig_of_error ob od, fun m hm => ?_⟩
  obtain ⟨hpattern, hbias, hdac⟩ := params_wf_layout hwf
  obtain ⟨hbiasDefault, hdacDefault⟩ := params_wf_defaultCode_lt hwf
  have hbiasLen := codeRows_length p.orderCfg (overridesFit_length hob)
  have hencode := encodeConfig_of_ok hwf (overridesFit_length hob) (overridesFit_length hod) hm
  refine ⟨_, hencode, encodeConfig_length hwf hencode, fun k r hr => ?bias, fun k r hr => ?dac, ?mask⟩
  case bias =>
    rw [List.append_assoc]
    exact pack_eq_memRead_codeRows p.orderCfg (before := []) _ hbias hr hob hbiasDefault
  case dac =>
    exact pack_eq_memRead_codeRows p.orderCfg m (hbiasLen.symm ▸ hdac) hr hod hdacDefault
  case mask =>
    exact memRead_append_right (codeRows_append_length (overridesFit_length hob) (overridesFit_length hod))
      (maskRegion_length hpattern hm)

/-- Settles O16: the codes of absent overrides are the defaults, and an absent mask is the pattern. -/
theorem defaultBitsEncodeNoOverrideAndNoMask : Obligations.DefaultBitsEncodeNoOverrideAndNoMask := by
  intro p text hwf
  rw [encodeConfig_of_ok hwf List.length_replicate List.length_replicate rfl, codeRows_replicate_none,
    codeRows_replicate_none, defaultBits]

/-- Settles O17: both encodings are concatenations with the same mask region, and they differ in one slot of one half. -/
theorem overrideChangesOnlyItsSlot : Obligations.OverrideChangesOnlyItsSlot := by
  intro p ob od present text k v r s s' hwf hob hod hv hs
  obtain ⟨-, hbias, hdac⟩ := params_wf_layout hwf
  have hobLen := overridesFit_length hob
  have hodLen := overridesFit_length hod
  obtain ⟨m, hm, rfl⟩ := exists_of_encodeConfig_eq_ok hwf hobLen hodLen hs
  refine ⟨fun hrow hs' i hi => ?dac, fun hrow hs' i hi => ?bias⟩
  case dac =>
    have htile : rowsTile (codeRows p.orderCfg p.layout.bias ob).length p.layout.dac = true :=
      (codeRows_length p.orderCfg hobLen).symm ▸ hdac
    rw [encodeConfig_of_ok hwf hobLen (by rw [List.length_set, hodLen]) hm] at hs'
    cases hs'
    exact getElem?_codeRows_set p.orderCfg m htile hrow hodLen (some v) hi
  case bias =>
    rw [encodeConfig_of_ok hwf (by rw [List.length_set, hobLen]) hodLen hm] at hs'
    cases hs'
    rw [List.append_assoc, List.append_assoc]
    exact getElem?_codeRows_set p.orderCfg (before := []) _ hbias hrow hobLen (some v) hi

end Sys2Proof.Machine
end

section
/-! The commands of the Config Encoder (spec/41_config_encoder.md R130 to R135): each outcome of a command as one
equation, and what every command does to CFG_VALID. -/

namespace Sys2Proof.Machine

/-! ### CFG.CLR and MASK.PUT (R130, R132) -/

theorem exec_cfgClr (s : State) :
    exec .cfgClr s = .next { s with
      ovrDac := List.replicate s.params.layout.dac.length none
      ovrBias := List.replicate s.params.layout.bias.length none
      cfgValid := false
      status := .ok
      errInfo := 0 } := by
  rw [exec, execCfgClr, gated_of_legal rfl]
  rfl

/-- MASK.PUT with the store full (R132). -/
theorem exec_maskPut_of_full {s : State} (c : Byte) (h : mtxtCap ≤ s.mtxt.length) :
    exec (.maskPut c) s =
      .next { s with maskPresent := true, cfgValid := false, status := .ok, errInfo := 0 } := by
  rw [exec, execMaskPut, gated_of_legal rfl, if_neg (Nat.not_lt.mpr h)]
  rfl

/-- Settles O22: the words, the outcomes of the three commands, and the length of a text that parses. -/
theorem stagingCommandRules : Obligations.StagingCommandRules :=
  ⟨⟨fun _ => decode_eq_ok_iff_encode, exec_cfgClr⟩,
    fun c _ => ⟨fun _ => decode_eq_ok_iff_encode, exec_maskPut c, exec_maskPut_of_full c⟩,
    fun _ _ => length_le_of_parseMask_eq_ok,
    fun _ => decode_eq_ok_iff_encode, exec_maskNone⟩

/-! ### CFG.SET (R131) -/

section
variable {half : Half} {key : Byte} {value : Word} {s : State}

theorem exec_cfgSet_of_no_key (value : Word) (h : (s.params.layout.rows half).length ≤ key.toNat) :
    exec (.cfgSet half key value) s = .next { s with status := .configKeyError, errInfo := key.setWidth 32 } := by
  rw [exec, execCfgSet, gated_of_legal rfl, List.getElem?_eq_none h]
  rfl

variable {row : LayoutRow} (hrow : (s.params.layout.rows half)[key.toNat]? = some row)
include hrow

theorem exec_cfgSet_of_overflow (hv : 2 ^ row.width ≤ value.toNat) :
    exec (.cfgSet half key value) s = .next { s with status := .overflowError, errInfo := value } := by
  rw [exec, execCfgSet, gated_of_legal rfl, hrow]
  exact if_neg (Nat.not_lt.mpr hv)

theorem exec_cfgSet_of_fits (hv : value.toNat < 2 ^ row.width) :
    exec (.cfgSet half key value) s =
      .next { s.setOverride half key.toNat value.toNat with cfgValid := false, status := .ok, errInfo := 0 } := by
  rw [exec, execCfgSet, gated_of_legal rfl, hrow]
  exact if_pos hv

end

/-- Settles O23: the word of either half, and the three outcomes, which are the same rule in both halves. -/
theorem cfgSetCommandRule : Obligations.CfgSetCommandRule := fun _ value _ =>
  ⟨fun _ => decode_eq_ok_iff_encode, fun _ => decode_eq_ok_iff_encode,
    exec_cfgSet_of_no_key (half := .dac) value, exec_cfgSet_of_no_key (half := .bias) value,
    fun _ => exec_cfgSet_of_overflow (half := .dac), fun _ => exec_cfgSet_of_overflow (half := .bias),
    fun _ => exec_cfgSet_of_fits (half := .dac), fun _ => exec_cfgSet_of_fits (half := .bias)⟩

/-! ### CFG.ENCODE (R134) -/

theorem exec_cfgEncode_of_error {s : State} {info : Word} (h : s.encoded = .error info) :
    exec .cfgEncode s = .next { s with status := .maskShapeError, errInfo := info } := by
  rw [exec, execCfgEncode, gated_of_legal rfl, h]
  rfl

theorem exec_cfgEncode_of_ok {s : State} {bits : Bits} (h : s.encoded = .ok bits) :
    exec .cfgEncode s = .next { s with cfg := bits, cfgValid := true, status := .ok, errInfo := 0 } := by
  rw [exec, execCfgEncode, gated_of_legal rfl, h]
  rfl

/-- Settles O24: the word, and the two outcomes of encoding the staging state. -/
theorem cfgEncodeCommandRule : Obligations.CfgEncodeCommandRule :=
  ⟨fun _ => decode_eq_ok_iff_encode, fun _ => ⟨fun _ => exec_cfgEncode_of_error, fun _ => exec_cfgEncode_of_ok⟩⟩

/-! ### CFG_VALID (R135) -/

@[simp] theorem polled_cfgValid (s : State) (bs : List Byte) : (s.polled bs).cfgValid = s.cfgValid := by
  rw [polled_eq, closeAfterPoll_eq]

/-- The commands that set CFG_VALID (R135). -/
def SetsCfgValid (i : Instr) : Prop := i = .cfgEncode ∨ i = .asicInit

/-- The commands that clear CFG_VALID, with the state they end in: of CFG.SET only one that succeeded (R135). -/
def ClearsCfgValid (i : Instr) (t : State) : Prop :=
  i = .cfgClr ∨ i = .maskNone ∨ (∃ c, i = .maskPut c) ∨ (∃ half k v, i = .cfgSet half k v ∧ t.status = .ok) ∨
    ∃ en m e, i = .sessInit en m e

/-- Every way a command can end leaves CFG_VALID, or is that of a command that sets it or of one that clears it. -/
theorem ran_cfgValid {i : Instr} {s t : State} (h : Ran i s t) :
    t.cfgValid = s.cfgValid ∨ (t.cfgValid = true ∧ SetsCfgValid i) ∨ (t.cfgValid = false ∧ ClearsCfgValid i t) := by
  cases h with
  | cfgEncode => exact .inr (.inl ⟨rfl, .inl rfl⟩)
  | asicInit => exact .inr (.inl ⟨rfl, .inr rfl⟩)
  | asicInitFail => exact .inr (.inl ⟨rfl, .inr rfl⟩)
  | cfgClr => exact .inr (.inr ⟨rfl, .inl rfl⟩)
  | maskNone => exact .inr (.inr ⟨rfl, .inr (.inl rfl)⟩)
  | maskPut _ c => exact .inr (.inr ⟨rfl, .inr (.inr (.inl ⟨c, rfl⟩))⟩)
  | cfgSet _ half key value =>
    exact .inr (.inr ⟨rfl, .inr (.inr (.inr (.inl ⟨half, key, value, rfl, rfl⟩)))⟩)
  | sessInit _ en m e => exact .inr (.inr ⟨rfl, .inr (.inr (.inr (.inr ⟨en, m, e, rfl⟩)))⟩)
  | rdPoll => exact .inl (polled_cfgValid ..)
  | _ => exact .inl rfl

/-- Settles O25: of the ways a command can end, those that change CFG_VALID are those of the listed commands. -/
theorem cfgValidIsSetAndClearedAsListed : Obligations.CfgValidIsSetAndClearedAsListed := by
  intro i s t h
  rcases ran_cfgValid (exec_ran h) with hsame | ⟨htrue, hsets⟩ | ⟨hfalse, hclears⟩
  case inl => exact ⟨fun hs ht => by simp [hsame, hs] at ht, fun hs ht => by simp [hsame, hs] at ht⟩
  case inr.inl => exact ⟨fun _ _ => hsets, fun _ ht => by simp [htrue] at ht⟩
  case inr.inr => exact ⟨fun _ ht => by simp [hfalse] at ht, fun _ _ => hclears⟩

end Sys2Proof.Machine
end

section
/-! The Register Protocol (spec/42_register_protocol.md): the transport calls by the answer they draw (R141 to R143),
and each outcome of a command as one equation (R145 to R157). -/

namespace Sys2Proof.Machine

/-! ### The transport calls (R141 to R143) -/

/-- The state that drawing an answer to a write leaves: some placed answers, some count of free ones. -/
theorem exists_draws_of_answerTx {s u : State} {a : TransportOutcome} (h : s.answerTx = (a, u)) :
    ∃ ta fa, u = { s with txAnswers := ta, freeAnswers := fa } := by
  have hframe := answerTx_frame s
  rw [h] at hframe
  exact ⟨_, _, hframe⟩

/-- The same for reads. -/
theorem exists_draws_of_answerRx {s u : State} {a : TransportOutcome} (h : s.answerRx = (a, u)) :
    ∃ ra fa, u = { s with rxAnswers := ra, freeAnswers := fa } := by
  have hframe := answerRx_frame s
  rw [h] at hframe
  exact ⟨_, _, hframe⟩

/-- Settles O26: of a failed call the `j` bytes are those of `k`, or all of them when `k` is more (log 5). -/
theorem transportCallsSucceedOrLeaveAPrefix : Obligations.TransportCallsSucceedOrLeaveAPrefix := by
  refine ⟨fun s u bs => ⟨fun h => ?write, fun k h => ?writeFails⟩,
    fun s u m hm => ⟨fun h => ?read, fun k h => ?readFails⟩⟩
  case write =>
    obtain ⟨ta, fa, rfl⟩ := exists_draws_of_answerTx h
    rw [txWrite_of_ok bs (congrArg Prod.fst h), h]
  case writeFails =>
    obtain ⟨ta, fa, rfl⟩ := exists_draws_of_answerTx h
    refine ⟨min k bs.length, min_le_right .., min_eq_left, ?_⟩
    rw [txWrite_of_fail bs (congrArg Prod.fst h), h, ← List.take_eq_take_min]
  case read =>
    obtain ⟨ra, fa, rfl⟩ := exists_draws_of_answerRx h
    rw [rxRead_of_ok m (congrArg Prod.fst h), h]
  case readFails =>
    obtain ⟨ra, fa, rfl⟩ := exists_draws_of_answerRx h
    refine ⟨min k m, min_le_right .., min_eq_left, ?_⟩
    rw [rxRead_of_fail m (congrArg Prod.fst h), h]

/-- Settles O27: what `sr_write` does is said of the state before; the state after the draw differs from it in the draws
alone. -/
theorem srWritePulsesTheLatchOnlyAfterAllBytes : Obligations.SrWritePulsesTheLatchOnlyAfterAllBytes := by
  refine fun s u bits t p => ⟨fun h => ?ok, fun k h => ?fail⟩
  case ok =>
    obtain ⟨ta, fa, rfl⟩ := exists_draws_of_answerTx h
    rw [srWrite_of_ok bits t p (congrArg Prod.fst h), h]
  case fail =>
    obtain ⟨ta, fa, rfl⟩ := exists_draws_of_answerTx h
    rw [srWrite_of_fail bits t p (congrArg Prod.fst h), h]

/-! ### The stage gate (R232) -/

/-- Every command is gated: at a stage that is not legal it raises StageError and does nothing else. -/
theorem exec_of_illegal_stage {i : Instr} {s : State} (h : ¬ stageLegal i s.stage = true) :
    exec i s = .next { s with status := .stageError, errInfo := stageInfo s.stage } := by
  cases i <;> exact gated_of_illegal (Bool.eq_false_iff.mpr h)

theorem isOpen_eq_true_iff {st : Stage} : st.isOpen = true ↔ st ≠ .reset ∧ st ≠ .closed := by
  cases st <;> decide

section
variable {st : Stage}

theorem stageLegal_asicInit_iff : stageLegal .asicInit st = true ↔ st = .inited := beq_iff_eq

theorem stageLegal_vbInit_iff {slot : Byte} : stageLegal (.vbInit slot) st = true ↔ st = .asicDone := beq_iff_eq

theorem stageLegal_regRead_iff {addr : Byte} :
    stageLegal (.regRead addr) st = true ↔ st ≠ .reset ∧ st ≠ .readout ∧ st ≠ .closed := by
  rw [stageLegal, Bool.and_eq_true, isOpen_eq_true_iff, bne_iff_ne]
  tauto

theorem stageLegal_spiEnable_iff : stageLegal .spiEnable st = true ↔ st = .injDone := beq_iff_eq

theorem stageLegal_sessClose_iff : stageLegal .sessClose st = true ↔ st ≠ .reset ∧ st ≠ .closed := isOpen_eq_true_iff

end

/-! ### SESS.INIT (R145, R146) -/

/-- Settles O28: SESS.INIT is legal at every stage, and it is the reset with r and RXQ put back, OUT extended, and the
session opened. -/
theorem sessInitCommandRule : Obligations.SessInitCommandRule := by
  refine fun en maxruns errmax s => ⟨fun _ => decode_eq_ok_iff_encode, ?_⟩
  rw [exec, execSessInit, gated_of_legal rfl, hardReset_eq_resetOf, State.dropEvents, ← List.append_assoc]
  rfl

/-! ### ASIC.INIT (R147) -/

/-- The answer to the write is drawn after CFG is written, which no draw depends on. -/
theorem answerTx_cfgWritten {s u : State} {a : TransportOutcome} (bits : Bits) (h : s.answerTx = (a, u)) :
    ({ s with cfg := bits, cfgValid := true } : State).answerTx.1 = a ∧
      ({ s with cfg := bits, cfgValid := true } : State).answerTx.2.txAnswers = u.txAnswers ∧
      ({ s with cfg := bits, cfgValid := true } : State).answerTx.2.freeAnswers = u.freeAnswers := by
  have hcongr := answerTx_congr (s := s) (t := { s with cfg := bits, cfgValid := true }) rfl rfl
  rwa [h] at hcongr

section
variable {s : State} (hstage : s.stage = .inited)
include hstage

theorem exec_asicInit_of_error {info : Word} (h : s.encoded = .error info) :
    exec .asicInit s = .next { s with status := .maskShapeError, errInfo := info } := by
  rw [exec, execAsicInit, gated_of_legal (stageLegal_asicInit_iff.mpr hstage), h]
  rfl

variable {bits : Bits} {u : State} (hbits : s.encoded = .ok bits)
include hbits

theorem exec_asicInit_of_writeFails {k : Nat} (h : s.answerTx = (.fail k, u)) :
    exec .asicInit s = .next { s with
      cfg := bits
      cfgValid := true
      out := s.out ++ ((tobytes bits).take k).map Event.txByte
      status := .transportError
      errInfo := 0
      txAnswers := u.txAnswers
      freeAnswers := u.freeAnswers } := by
  obtain ⟨hanswer, htx, hfree⟩ := answerTx_cfgWritten bits h
  rw [exec, execAsicInit, gated_of_legal (stageLegal_asicInit_iff.mpr hstage), hbits]
  simp only [srWrite_of_fail bits .asicConfig 0 hanswer, htx, hfree]

theorem exec_asicInit_of_ok (h : s.answerTx = (.ok, u)) :
    exec .asicInit s = .next { s with
      cfg := bits
      cfgValid := true
      out := s.out ++ (tobytes bits).map Event.txByte ++ [.latch .asicConfig 0 true, .latch .asicConfig 0 false]
      latch := false
      latchT := .asicConfig
      latchP := 0
      stage := .asicDone
      status := .ok
      errInfo := 0
      txAnswers := u.txAnswers
      freeAnswers := u.freeAnswers } := by
  obtain ⟨hanswer, htx, hfree⟩ := answerTx_cfgWritten bits h
  rw [exec, execAsicInit, gated_of_legal (stageLegal_asicInit_iff.mpr hstage), hbits]
  simp only [srWrite_of_ok bits .asicConfig 0 hanswer, htx, hfree, succeeded, State.succeed]

end

/-- Settles O29: the word, the gate, and the three outcomes at stage 1. -/
theorem asicInitCommandRule : Obligations.AsicInitCommandRule :=
  ⟨fun _ => decode_eq_ok_iff_encode, fun _ =>
    ⟨fun hstage => exec_of_illegal_stage (mt stageLegal_asicInit_iff.mp hstage),
      fun _ hstage => exec_asicInit_of_error hstage,
      fun _ _ _ hstage hbits => exec_asicInit_of_writeFails hstage hbits,
      fun _ _ hstage hbits => exec_asicInit_of_ok hstage hbits⟩⟩

/-! ### VB.SET (R149) -/

section
variable {ch : Byte} {s : State}

theorem exec_vbSet_of_no_channel (code : Word) (h : s.params.vbNdac ≤ ch.toNat) :
    exec (.vbSet ch code) s = .next { s with status := .configKeyError, errInfo := byteInfo ch } := by
  rw [exec, execVbSet, gated_of_legal rfl, if_neg (Nat.not_lt.mpr h)]
  rfl

variable {code : Word} (hch : ch.toNat < s.params.vbNdac)
include hch

theorem exec_vbSet_of_overflow (hcode : 2 ^ s.params.vbW ≤ code.toNat) :
    exec (.vbSet ch code) s = .next { s with status := .overflowError, errInfo := code } := by
  rw [exec, execVbSet, gated_of_legal rfl, if_pos hch, if_neg (Nat.not_lt.mpr hcode)]
  rfl

theorem exec_vbSet_of_fits (hcode : code.toNat < 2 ^ s.params.vbW) :
    exec (.vbSet ch code) s =
      .next { s with vbCode := s.vbCode.set ch.toNat code.toNat, status := .ok, errInfo := 0 } := by
  rw [exec, execVbSet, gated_of_legal rfl, if_pos hch, if_pos hcode]
  rfl

end

/-- Settles O30: the word, the two faults in the order of their checks, and the store. -/
theorem vbSetCommandRule : Obligations.VbSetCommandRule := fun _ code _ =>
  ⟨fun _ => decode_eq_ok_iff_encode, exec_vbSet_of_no_channel code, exec_vbSet_of_overflow, exec_vbSet_of_fits⟩

/-! ### VB.INIT (R151) -/

section
variable {slot : Byte} {s : State} (hstage : s.stage = .asicDone)
include hstage

theorem exec_vbInit_of_no_slot (h : s.params.nSlots ≤ slot.toNat) :
    exec (.vbInit slot) s = .next { s with status := .configKeyError, errInfo := byteInfo slot } := by
  rw [exec, execVbInit, gated_of_legal (stageLegal_vbInit_iff.mpr hstage), if_neg (Nat.not_lt.mpr h)]
  rfl

variable {u : State} (hslot : slot.toNat < s.params.nSlots)
include hslot

theorem exec_vbInit_of_writeFails {k : Nat} (h : s.answerTx = (.fail k, u)) :
    exec (.vbInit slot) s = .next { s with
      out := s.out ++ ((tobytes s.vbBits).take k).map Event.txByte
      status := .transportError
      errInfo := 0
      txAnswers := u.txAnswers
      freeAnswers := u.freeAnswers } := by
  rw [exec, execVbInit, gated_of_legal (stageLegal_vbInit_iff.mpr hstage), if_pos hslot,
    srWrite_of_fail _ _ _ (congrArg Prod.fst h), h]

theorem exec_vbInit_of_ok (h : s.answerTx = (.ok, u)) :
    exec (.vbInit slot) s = .next { s with
      out := s.out ++ (tobytes s.vbBits).map Event.txByte ++
        [.latch .voltageBoard slot true, .latch .voltageBoard slot false]
      latch := false
      latchT := .voltageBoard
      latchP := slot
      vbSlot := slot
      stage := .voltDone
      status := .ok
      errInfo := 0
      txAnswers := u.txAnswers
      freeAnswers := u.freeAnswers } := by
  rw [exec, execVbInit, gated_of_legal (stageLegal_vbInit_iff.mpr hstage), if_pos hslot,
    srWrite_of_ok _ _ _ (congrArg Prod.fst h), h]
  rfl

end

/-- Settles O31: the word, the gate, the slot checked before the write, and the two outcomes of the write. -/
theorem vbInitCommandRule : Obligations.VbInitCommandRule := fun _ _ =>
  ⟨fun _ => decode_eq_ok_iff_encode,
    fun hstage => exec_of_illegal_stage (mt stageLegal_vbInit_iff.mp hstage),
    exec_vbInit_of_no_slot,
    fun _ _ hstage hslot => exec_vbInit_of_writeFails hstage hslot,
    fun _ hstage hslot => exec_vbInit_of_ok hstage hslot⟩

/-! ### REG.READ up to its hold (R153) -/

/-- REG.READ after its write of the address, which drew the answer that leaves `u`: the byte is out and BUSY is 1. -/
def State.addressSent (s : State) (addr : Byte) (u : State) : State :=
  { s with
    out := s.out ++ [.txByte addr], busy := true, txAnswers := u.txAnswers, freeAnswers := u.freeAnswers }

/-- The answer to the read that follows is the next one in the state that the write's draw left. -/
theorem answerRx_addressSent {s u v : State} {a b : TransportOutcome} (addr : Byte) (hsent : s.answerTx = (a, u))
    (h : u.answerRx = (b, v)) :
    (s.addressSent addr u).answerRx.1 = b ∧ (s.addressSent addr u).answerRx.2.rxAnswers = v.rxAnswers ∧
      (s.addressSent addr u).answerRx.2.freeAnswers = v.freeAnswers := by
  obtain ⟨ta, fa, rfl⟩ := exists_draws_of_answerTx hsent
  have hcongr := answerRx_congr (s := { s with txAnswers := ta, freeAnswers := fa })
    (t := s.addressSent addr { s with txAnswers := ta, freeAnswers := fa }) rfl rfl
  rwa [h] at hcongr

section
variable {addr : Byte} {s u : State} (hlegal : stageLegal (.regRead addr) s.stage = true)
include hlegal

theorem exec_regRead_of_writeFails {k : Nat} (h : s.answerTx = (.fail k, u)) :
    exec (.regRead addr) s = .next { s with
      out := s.out ++ (if k = 0 then [] else [.txByte addr])
      status := .transportError
      errInfo := 0
      txAnswers := u.txAnswers
      freeAnswers := u.freeAnswers } := by
  have hbytes : ([addr].take k).map Event.txByte = if k = 0 then [] else [.txByte addr] := by
    cases k <;> simp
  rw [exec, execRegRead, gated_of_legal hlegal, txWrite_of_fail _ (congrArg Prod.fst h), h, hbytes]

variable (hsent : s.answerTx = (.ok, u))
include hsent

theorem exec_regRead_of_ok :
    exec (.regRead addr) s =
      if s.responseReady then finishRead (s.addressSent addr u) else .next (s.addressSent addr u) := by
  rw [exec, execRegRead, gated_of_legal hlegal, txWrite_of_ok _ (congrArg Prod.fst hsent), hsent]
  rfl

theorem exec_regRead_of_short (hshort : s.rxq.length < s.params.respLen) :
    exec (.regRead addr) s = .next (s.addressSent addr u) := by
  rw [exec_regRead_of_ok hlegal hsent, responseReady_eq_false hshort, if_neg Bool.false_ne_true]

theorem exec_regRead_of_ready (hready : s.params.respLen ≤ s.rxq.length) :
    exec (.regRead addr) s = finishRead (s.addressSent addr u) := by
  rw [exec_regRead_of_ok hlegal hsent, State.responseReady, if_pos (decide_eq_true hready)]

variable {v : State} (hready : s.params.respLen ≤ s.rxq.length)
include hready

theorem exec_regRead_of_read (h : u.answerRx = (.ok, v)) :
    exec (.regRead addr) s = .next { s with
      out := s.out ++ [.txByte addr]
      busy := false
      r := { s.r with r0 := responseValue (s.rxq.take s.params.respLen) }
      rxq := s.rxq.drop s.params.respLen
      status := .ok
      errInfo := 0
      txAnswers := u.txAnswers
      rxAnswers := v.rxAnswers
      freeAnswers := v.freeAnswers } := by
  obtain ⟨hanswer, hrx, hfree⟩ := answerRx_addressSent addr hsent h
  rw [exec_regRead_of_ready hlegal hsent hready, finishRead_of_ok hanswer, hrx, hfree]
  rfl

theorem exec_regRead_of_readFails {j : Nat} (h : u.answerRx = (.fail j, v)) :
    exec (.regRead addr) s = .next { s with
      out := s.out ++ [.txByte addr]
      busy := false
      rxq := s.rxq.drop (min j s.params.respLen)
      status := .transportError
      errInfo := 1
      txAnswers := u.txAnswers
      rxAnswers := v.rxAnswers
      freeAnswers := v.freeAnswers } := by
  obtain ⟨hanswer, hrx, hfree⟩ := answerRx_addressSent addr hsent h
  rw [exec_regRead_of_ready hlegal hsent hready, finishRead_of_fail hanswer, hrx, hfree]
  rfl

end

/-- Settles O32: the word, the gate, the failed write, the hold, and the two outcomes of a read that need not wait. -/
theorem regReadCommandRule : Obligations.RegReadCommandRule := by
  intro addr s
  have hlegal (h0 : s.stage ≠ .reset) (h5 : s.stage ≠ .readout) (h6 : s.stage ≠ .closed) :
      stageLegal (.regRead addr) s.stage = true := stageLegal_regRead_iff.mpr ⟨h0, h5, h6⟩
  refine ⟨fun _ => decode_eq_ok_iff_encode, fun hstage => exec_of_illegal_stage ?gate,
    fun _ _ h0 h5 h6 => exec_regRead_of_writeFails (hlegal h0 h5 h6),
    fun _ h0 h5 h6 => exec_regRead_of_short (hlegal h0 h5 h6),
    fun _ _ h0 h5 h6 hsent hready => exec_regRead_of_read (hlegal h0 h5 h6) hsent hready,
    fun _ _ _ h0 h5 h6 hsent hready => exec_regRead_of_readFails (hlegal h0 h5 h6) hsent hready⟩
  rw [stageLegal_regRead_iff]
  tauto

/-! ### The hold of REG.READ (R153, R257) -/

/-- Settles O33: with the response there the step is the read; else it is the next move of the environment, if any. -/
theorem heldReadGoesOnAndEnds : Obligations.HeldReadGoesOnAndEnds := by
  refine fun s hwf hheld => ⟨fun u hready h => ?read, fun u j hready h => ?readFails,
    fun b left hshort hmove => ?arrival, fun j left hshort hmove => ?failing, step_holds hwf hheld⟩
  case read =>
    rw [step_finishes_read hwf hheld hready, finishRead_of_ok (congrArg Prod.fst h), h]
  case readFails =>
    rw [step_finishes_read hwf hheld hready, finishRead_of_fail (congrArg Prod.fst h), h]
  case arrival =>
    rw [step_takes_next_move hwf hheld hshort hmove]
    rfl
  case failing =>
    rw [step_takes_next_move hwf hheld hshort hmove]
    rfl

/-! ### SPI.ENABLE and SESS.CLOSE (R155, R157) -/

theorem exec_spiEnable_of_injDone {s : State} (h : s.stage = .injDone) :
    exec .spiEnable s = .next { s with
      spiEn := true, out := s.out ++ [.spiEn true], stage := .readout, status := .ok, errInfo := 0 } := by
  rw [exec, execSpiEnable, gated_of_legal (stageLegal_spiEnable_iff.mpr h)]
  rfl

theorem exec_sessClose_of_open {s : State} (h0 : s.stage ≠ .reset) (h6 : s.stage ≠ .closed) :
    exec .sessClose s =
      .next { s with stage := .closed, termCause := .sessClose, status := .ok, errInfo := 0 } := by
  rw [exec, execSessClose, gated_of_legal (stageLegal_sessClose_iff.mpr ⟨h0, h6⟩)]
  rfl

/-- Settles O34: the two words, and of each command the gate and the one outcome past it. -/
theorem spiEnableAndSessCloseCommandRules : Obligations.SpiEnableAndSessCloseCommandRules := by
  refine ⟨⟨fun _ => decode_eq_ok_iff_encode, fun s =>
      ⟨fun hstage => exec_of_illegal_stage (mt stageLegal_spiEnable_iff.mp hstage), exec_spiEnable_of_injDone⟩⟩,
    fun _ => decode_eq_ok_iff_encode, fun s =>
      ⟨fun hstage => exec_of_illegal_stage ?gate, exec_sessClose_of_open⟩⟩
  rw [stageLegal_sessClose_iff]
  tauto

end Sys2Proof.Machine
end

section
/-! The Readout Decoder (spec/43_readout_decoder.md): one byte in each state of the decoder and the end of a frame (R168
to R172), the loop over the bytes read (R174, R176), and each outcome of a command as one equation (R175 to R180). -/

namespace Sys2Proof.Machine

/-! ### The end of a frame (R171, R172) -/

section
variable {s : State}

/-- A frame that passes its checks is appended to HITQ. -/
theorem emitFrame_of_good (h : frameCause s.params s.fbuf = none) :
    emitFrame s = ({ s with
      hitq := s.hitq ++ [extractRecord s.params (s.fbuf.take s.params.frame.payloadLen)]
      fbuf := []
      skipping := false
      decState := .awaitingSync }, .record) := by
  rw [emitFrame, h]

/-- A frame that fails a check is discarded and counted. -/
theorem emitFrame_of_bad {c : DecCause} (h : frameCause s.params s.fbuf = some c) :
    emitFrame s = ({ s with
      lastDecCause := c
      errCount := satInc s.errCount
      fbuf := []
      skipping := false
      decState := .awaitingSync }, .decodeError) := by
  rw [emitFrame, h]
  rfl

end

/-- The end marker fails where the table has one and the body has another byte, or none, in its place (R171). -/
theorem not_endMarker_fails_iff {p : Params} {body : List Byte} :
    ¬ (p.frame.hasEnd = true ∧ body[p.frame.payloadLen]? ≠ some p.frame.endMark) ↔
      p.frame.hasEnd = false ∨ body[p.frame.payloadLen]? = some p.frame.endMark := by
  rw [not_and_or, not_not, Bool.not_eq_true]

/-- Every field of a well-formed frame table is at most 32 bits wide (R12, R166). -/
theorem params_wf_fields_le {p : Params} (h : p.wf = true) :
    p.frame.col.w ≤ 32 ∧ p.frame.row.w ≤ 32 ∧ p.frame.toa.w ≤ 32 ∧ p.frame.tot.w ≤ 32 := by
  simp only [Params.wf, FrameTable.wf, FieldSlot.wf, Bool.and_eq_true, decide_eq_true_eq] at h
  omega

/-- A field of at most 32 bits keeps its value when it is extended to a word (R172). -/
theorem frameField_toNat (p : Params) (payload : List Byte) {f : FieldSlot} (h : f.w ≤ 32) :
    (frameField p payload f).toNat = unpack (memRead (frombytes payload) f.off f.w) p.orderFrame := by
  have hlen : (memRead (frombytes payload) f.off f.w).length ≤ 32 := (List.length_take_le ..).trans h
  exact Nat.mod_eq_of_lt ((unpack_lt _ _).trans_le (Nat.pow_le_pow_right (n := 2) (by decide) hlen))

/-- Settles O36: one case for each check that can be the first to fail, and one for none; emit_frame by its cause; and
each field fits its word. -/
theorem frameValidationAndExtraction : Obligations.FrameValidationAndExtraction := by
  refine ⟨fun p body => ?checks, fun s => ⟨emitFrame_of_good, fun c n hbad hn => ?emit⟩,
    fun p payload hwf => ?fields⟩
  case checks =>
    simp only [← not_endMarker_fails_iff]
    rw [frameCause]
    split_ifs with hend hsum hcol hrow
    · simp [hend]
    · simp [hend, hsum]
    · simp [hend, hsum, hcol]
    · simp [hend, hsum, Nat.lt_of_not_le hcol, hrow]
    · simp [hend, hsum, Nat.lt_of_not_le hcol, Nat.lt_of_not_le hrow]
  case emit =>
    obtain rfl : n = satInc s.errCount := BitVec.eq_of_toNat_eq (hn.trans (satInc_toNat _).symm)
    exact emitFrame_of_bad hbad
  case fields =>
    obtain ⟨hcol, hrow, htoa, htot⟩ := params_wf_fields_le hwf
    exact ⟨frameField_toNat p payload hcol, frameField_toNat p payload hrow, frameField_toNat p payload htoa,
      frameField_toNat p payload htot, rfl⟩

/-! ### One byte (R168 to R170) -/

section
variable {x : Byte} {s : State} (hsync : s.decState = .awaitingSync)
include hsync

theorem decByte_of_start (hstart : s.params.frame.hasStart = true) (hx : x = s.params.frame.start) :
    decByte x s = ({ s with skipping := false, decState := .readingFrame }, .nothing) := by
  rw [decByte, if_pos hsync, awaitSync, if_pos hstart, if_pos hx]

/-- A byte that is not the start marker is discarded; the first of a run of them is counted. -/
theorem decByte_of_not_start (hstart : s.params.frame.hasStart = true) (hx : x ≠ s.params.frame.start) :
    decByte x s = ({ s with
      syncLossCount := if s.skipping then s.syncLossCount else satInc s.syncLossCount
      skipping := true }, .nothing) := by
  rw [decByte, if_pos hsync, awaitSync, if_pos hstart, if_neg hx]

theorem decByte_of_length_framed (hstart : s.params.frame.hasStart = false) :
    decByte x s = readFrame x { s with decState := .readingFrame } := by
  rw [decByte, if_pos hsync, awaitSync, if_neg (Bool.not_eq_true _ ▸ hstart)]

end

section
variable {x : Byte} {s : State} (hread : s.decState = .readingFrame)
include hread

theorem decByte_of_readingFrame : decByte x s = readFrame x s := by
  rw [decByte, if_neg (by simp [hread])]

theorem decByte_of_short (hshort : s.fbuf.length + 1 ≠ s.params.frame.bodyLen) :
    decByte x s = ({ s with fbuf := s.fbuf ++ [x] }, .nothing) := by
  rw [decByte_of_readingFrame hread, readFrame, if_neg (by simpa using hshort)]

variable (hlast : s.fbuf.length + 1 = s.params.frame.bodyLen)
include hlast

theorem decByte_of_last :
    decByte x s = emitFrame { s with fbuf := s.fbuf ++ [x], decState := .emitting } := by
  rw [decByte_of_readingFrame hread, readFrame, if_pos (by simpa using hlast)]

theorem decByte_of_good (h : frameCause s.params (s.fbuf ++ [x]) = none) :
    decByte x s = ({ s with
      hitq := s.hitq ++ [extractRecord s.params ((s.fbuf ++ [x]).take s.params.frame.payloadLen)]
      fbuf := []
      skipping := false
      decState := .awaitingSync }, .record) := by
  rw [decByte_of_last hread hlast, emitFrame_of_good h]

theorem decByte_of_bad {c : DecCause} (h : frameCause s.params (s.fbuf ++ [x]) = some c) :
    decByte x s = ({ s with
      lastDecCause := c
      errCount := satInc s.errCount
      fbuf := []
      skipping := false
      decState := .awaitingSync }, .decodeError) := by
  rw [decByte_of_last hread hlast, emitFrame_of_bad h]

end

/-- Settles O35: the states and the branches of `dec_byte`, each by its equation. -/
theorem decodeByteRules : Obligations.DecodeByteRules := by
  refine ⟨fun x s hsync => ⟨decByte_of_start hsync, fun hstart hx hskip => ?again, fun hstart hx hskip => ?first,
      decByte_of_length_framed hsync⟩,
    fun x s hread => ⟨decByte_of_short hread, decByte_of_good hread, fun _ hlast => decByte_of_bad hread hlast⟩⟩
  case again => rw [decByte_of_not_start hsync hstart hx, if_pos hskip, ← hskip]
  case first => rw [decByte_of_not_start hsync hstart hx, if_neg (by simp [hskip])]

/-! ### The loop over the bytes read (R174, R176) -/

section
variable {x : Byte} {xs : List Byte} {s t : State} {hits errs : Nat}

theorem decBytes_cons_of_nothing (h : decByte x s = (t, .nothing)) :
    decBytes (x :: xs) s hits errs = decBytes xs t hits errs := by
  rw [decBytes, h]

theorem decBytes_cons_of_record (h : decByte x s = (t, .record)) :
    decBytes (x :: xs) s hits errs = decBytes xs t (hits + 1) errs := by
  rw [decBytes, h]

theorem decBytes_cons_of_decodeError (h : decByte x s = (t, .decodeError)) :
    decBytes (x :: xs) s hits errs = decBytes xs t hits (errs + 1) := by
  rw [decBytes, h]

end

/-! ### The counts of the loop (R176, R216) -/

/-- Every record counted stands new at the back of HITQ, every error counted is in ERR_COUNT up to its saturation, and
a byte gives at most one of the two. -/
theorem decBytes_counts (bs : List Byte) (s : State) (hits errs : Nat) :
    ∃ (t : State) (new : List HitRecord) (k : Nat), decBytes bs s hits errs = (t, hits + new.length, errs + k) ∧
      new.length + k ≤ bs.length ∧ t.hitq = s.hitq ++ new ∧
      t.errCount.toNat = min (s.errCount.toNat + k) (2 ^ 32 - 1) := by
  induction bs generalizing s hits errs with
  | nil => exact ⟨s, [], 0, rfl, Nat.le_refl _, by simp, by have := s.errCount.isLt; omega⟩
  | cons x xs ih =>
    have hc := decByte_counts x s
    rcases hd : decByte x s with ⟨u, ev⟩
    rw [hd] at hc
    cases ev with
    | nothing =>
      obtain ⟨hhitq, herr⟩ := hc
      obtain ⟨t, new, k, heq, hle, hq, he⟩ := ih u hits errs
      refine ⟨t, new, k, (decBytes_cons_of_nothing hd).trans heq, Nat.le_succ_of_le hle, ?_, ?_⟩
      · rw [hq, hhitq]
      · rw [he, herr]
    | record =>
      obtain ⟨⟨h, hhitq⟩, herr⟩ := hc
      obtain ⟨t, new, k, heq, hle, hq, he⟩ := ih u (hits + 1) errs
      refine ⟨t, h :: new, k, (decBytes_cons_of_record hd).trans ?_, ?_, ?_, ?_⟩
      · rw [heq, List.length_cons, Nat.add_assoc, Nat.add_comm 1]
      · rw [List.length_cons, List.length_cons]; omega
      · rw [hq, hhitq, List.append_assoc, List.singleton_append]
      · rw [he, herr]
    | decodeError =>
      obtain ⟨hhitq, herr⟩ := hc
      obtain ⟨t, new, k, heq, hle, hq, he⟩ := ih u hits (errs + 1)
      refine ⟨t, new, k + 1, (decBytes_cons_of_decodeError hd).trans ?_, Nat.succ_le_succ hle, ?_, ?_⟩
      · rw [heq, Nat.add_assoc, Nat.add_comm 1]
      · rw [hq, hhitq]
      · rw [he, herr, satInc_toNat]; omega

/-- Settles O41: the loop counts from 0. -/
theorem pollCountsMatchTheDecoder : Obligations.PollCountsMatchTheDecoder := by
  intro bs s t hits errs h
  obtain ⟨u, new, k, heq, hle, hq, he⟩ := decBytes_counts bs s 0 0
  rw [h, Nat.zero_add, Nat.zero_add] at heq
  cases heq
  exact ⟨hle, ⟨new, hq, rfl⟩, he⟩

/-! ### Whole frames (R174) -/

/-- Between two frames of a table with a start marker: the decoder waits for the marker, FBUF is empty. -/
def State.BetweenFrames (s : State) : Prop :=
  s.decState = .awaitingSync ∧ s.fbuf = [] ∧ s.params.frame.hasStart = true

theorem State.Inv.betweenFrames {s : State} (hi : s.Inv) (hsync : s.decState = .awaitingSync)
    (hstart : s.params.frame.hasStart = true) : s.BetweenFrames := by
  rcases hi.decoderBoundary with ⟨_, hempty⟩ | ⟨hread, _⟩
  · exact ⟨hsync, hempty, hstart⟩
  · rw [hsync] at hread; cases hread

/-- Bytes that do not complete the body are collected in FBUF. -/
theorem decBytes_of_short {bs : List Byte} {s : State} (hread : s.decState = .readingFrame)
    (hshort : s.fbuf.length + bs.length < s.params.frame.bodyLen) (hits errs : Nat) :
    decBytes bs s hits errs = ({ s with fbuf := s.fbuf ++ bs }, hits, errs) := by
  induction bs generalizing s with
  | nil => rw [List.append_nil]; rfl
  | cons x xs ih =>
    rw [List.length_cons] at hshort
    rw [decBytes_cons_of_nothing (decByte_of_short hread (by omega)),
      ih (s := { s with fbuf := s.fbuf ++ [x] }) hread (by simp; omega), List.append_assoc, List.singleton_append]

section
variable {s : State} {mark x : Byte} {init : List Byte} (hbetween : s.BetweenFrames)
  (hmark : mark = s.params.frame.start) (hlen : (init ++ [x]).length = s.params.frame.bodyLen)
include hbetween hmark hlen

/-- A start marker and a whole body come down to the last byte. -/
theorem decBytes_of_frame (hits errs : Nat) :
    decBytes (mark :: (init ++ [x])) s hits errs =
      decBytes [x] { s with fbuf := init, skipping := false, decState := .readingFrame } hits errs := by
  obtain ⟨hsync, hempty, hstart⟩ := hbetween
  rw [List.length_append, List.length_singleton] at hlen
  rw [decBytes_cons_of_nothing (decByte_of_start hsync hstart hmark), decBytes_append,
    decBytes_of_short (bs := init) rfl (by simp only [hempty, List.length_nil]; omega), hempty, List.nil_append]

/-- A good frame adds its record and leaves the decoder between frames. -/
theorem decBytes_of_good_frame (h : frameCause s.params (init ++ [x]) = none) (hits errs : Nat) :
    decBytes (mark :: (init ++ [x])) s hits errs =
      ({ s with
        hitq := s.hitq ++ [extractRecord s.params ((init ++ [x]).take s.params.frame.payloadLen)]
        skipping := false }, hits + 1, errs) := by
  have ⟨hsync, hempty, _⟩ := hbetween
  rw [decBytes_of_frame hbetween hmark hlen,
    decBytes_cons_of_record (decByte_of_good rfl (by simpa using hlen) h), decBytes, hsync, hempty]

/-- A bad frame adds one decode error with its cause and leaves the decoder between frames. -/
theorem decBytes_of_bad_frame {c : DecCause} (h : frameCause s.params (init ++ [x]) = some c) (hits errs : Nat) :
    decBytes (mark :: (init ++ [x])) s hits errs =
      ({ s with
        lastDecCause := c
        errCount := satInc s.errCount
        skipping := false }, hits, errs + 1) := by
  have ⟨hsync, hempty, _⟩ := hbetween
  rw [decBytes_of_frame hbetween hmark hlen,
    decBytes_cons_of_decodeError (decByte_of_bad rfl (by simpa using hlen) h), decBytes, hsync, hempty]

end

/-- A body has a last byte (R166). -/
theorem exists_last_of_body {p : Params} (hwf : p.wf = true) {body : List Byte}
    (hlen : body.length = p.frame.bodyLen) : ∃ init x, body = init ++ [x] := by
  have hne : body ≠ [] := List.length_pos_iff.mp (hlen ▸ params_wf_bodyLen_pos hwf)
  exact ⟨_, _, (List.dropLast_append_getLast hne).symm⟩

/-- Settles O38: three frames, each met by a decoder between frames. -/
theorem oneBadFrameCostsOneError : Obligations.OneBadFrameCostsOneError := by
  intro s good bad good' c hi hsync hstart hgood hbad hgood' hcgood hcbad hcgood'
  have hbetween := hi.betweenFrames hsync hstart
  obtain ⟨init1, x1, rfl⟩ := exists_last_of_body hi.paramsWf hgood
  obtain ⟨init2, x2, rfl⟩ := exists_last_of_body hi.paramsWf hbad
  obtain ⟨init3, x3, rfl⟩ := exists_last_of_body hi.paramsWf hgood'
  rw [decBytes_append, decBytes_append, decBytes_of_good_frame hbetween rfl hgood hcgood,
    decBytes_of_bad_frame (init := init2) (c := c), decBytes_of_good_frame (init := init3), List.append_assoc s.hitq]
  exacts [rfl, hbetween, rfl, hgood', hcgood', hbetween, rfl, hbad, hcbad]

/-! ### Resynchronisation (R174) -/

/-- `k` bytes are enough to end the frame the decoder is in, if it is in one. -/
def State.FrameEndsWithin (s : State) (k : Nat) : Prop :=
  (s.decState = .awaitingSync ∧ s.fbuf = []) ∨
  (s.decState = .readingFrame ∧ s.fbuf.length < s.params.frame.bodyLen ∧
    s.params.frame.bodyLen ≤ s.fbuf.length + k)

theorem frameEndsWithin_bodyLen {s : State} (hi : s.Inv) : s.FrameEndsWithin s.params.frame.bodyLen :=
  hi.decoderBoundary.imp_right fun ⟨hread, hlt⟩ => ⟨hread, hlt, Nat.le_add_left ..⟩

/-- A frame that has ended leaves no part of it behind. -/
theorem emitFrame_awaitsSync (s : State) :
    (emitFrame s).1.decState = .awaitingSync ∧ (emitFrame s).1.fbuf = [] := by
  rcases emitFrame_cases s with ⟨_, h⟩ | ⟨_, _, h⟩ <;> rw [h] <;> exact ⟨rfl, rfl⟩

/-- A byte that begins no frame brings the decoder one byte nearer. -/
theorem decByte_frameEndsWithin {x : Byte} {s : State} {k : Nat} (hstart : s.params.frame.hasStart = true)
    (hx : x ≠ s.params.frame.start) (h : s.FrameEndsWithin (k + 1)) : (decByte x s).1.FrameEndsWithin k := by
  rcases h with ⟨hsync, hempty⟩ | ⟨hread, hlt, hle⟩
  · rw [decByte_of_not_start hsync hstart hx]
    exact .inl ⟨hsync, hempty⟩
  · by_cases hlast : s.fbuf.length + 1 = s.params.frame.bodyLen
    · rw [decByte_of_last hread hlast]
      exact .inl (emitFrame_awaitsSync _)
    · rw [decByte_of_short hread hlast]
      exact .inr ⟨hread, by simp; omega, by simp; omega⟩

/-- With no start marker among them, the bytes end the frame the decoder is in and begin no other. -/
theorem decBytes_awaitsSync {bs : List Byte} {s : State} (hstart : s.params.frame.hasStart = true)
    (hbs : ∀ b ∈ bs, b ≠ s.params.frame.start) (h : s.FrameEndsWithin bs.length) (hits errs : Nat) :
    (decBytes bs s hits errs).1.decState = .awaitingSync ∧ (decBytes bs s hits errs).1.fbuf = [] := by
  induction bs generalizing s hits errs with
  | nil =>
    rcases h with hsync | ⟨_, hlt, hle⟩
    · exact hsync
    · exact absurd hle (Nat.not_le.mpr hlt)
  | cons x xs ih =>
    obtain ⟨hx, hxs⟩ := List.forall_mem_cons.mp hbs
    obtain ⟨hits', errs', hcons⟩ := decBytes_cons x xs s hits errs
    rw [hcons]
    have hparams := decByte_params x s
    exact ih (by rwa [hparams]) (by rwa [hparams]) (decByte_frameEndsWithin hstart hx h) hits' errs'

/-- Settles O37: `BODY_LEN` bytes end any frame, and none of them begins another. -/
theorem decoderResynchronises : Obligations.DecoderResynchronises :=
  fun _ _ hits errs hi hstart hlen hbs =>
    decBytes_awaitsSync hstart hbs (hlen ▸ frameEndsWithin_bodyLen hi) hits errs

/-! ### RD.PROBE and HIT.POP (R175, R180) -/

theorem stageLegal_rdProbe_iff {st : Stage} : stageLegal .rdProbe st = true ↔ st ≠ .reset ∧ st ≠ .closed :=
  isOpen_eq_true_iff

theorem exec_rdProbe_of_open {s : State} (h0 : s.stage ≠ .reset) (h6 : s.stage ≠ .closed) :
    exec .rdProbe s = .next { s with
      r := { s.r with r0 := if s.params.rxThresh < s.rxq.length then 1 else 0 }, status := .ok, errInfo := 0 } := by
  have hword : boolWord s.hitsPresent = if s.params.rxThresh < s.rxq.length then 1 else 0 := by
    simp [boolWord, State.hitsPresent]
  rw [exec, execRdProbe, gated_of_legal (stageLegal_rdProbe_iff.mpr ⟨h0, h6⟩), hword]
  rfl

theorem exec_hitPop_of_empty {s : State} (h : s.hitq = []) :
    exec .hitPop s = .next { s with status := .bufferError, errInfo := 0 } := by
  conv_lhs => rw [exec, execHitPop, gated_of_legal rfl, h]
  rfl

theorem exec_hitPop_of_cons {s : State} {h : HitRecord} {rest : List HitRecord} (hq : s.hitq = h :: rest) :
    exec .hitPop s = .next { s with
      hitq := rest
      r := { r0 := h.col, r1 := h.row, r2 := h.toa, r3 := h.tot, r4 := if h.valid then 1 else 0 }
      status := .ok
      errInfo := 0 } := by
  rw [exec, execHitPop, gated_of_legal rfl, hq]
  rfl

/-- Settles O39: the two words, RD.PROBE outside an open session and inside, HIT.POP on an empty queue and else. -/
theorem rdProbeAndHitPopCommandRules : Obligations.RdProbeAndHitPopCommandRules := by
  refine ⟨⟨fun _ => decode_eq_ok_iff_encode, fun s =>
      ⟨fun hstage => exec_of_illegal_stage ?gate, exec_rdProbe_of_open⟩⟩,
    fun _ => decode_eq_ok_iff_encode, fun s => ⟨exec_hitPop_of_empty, fun _ _ => exec_hitPop_of_cons⟩⟩
  rw [stageLegal_rdProbe_iff]
  tauto

/-! ### RD.POLL (R176 to R178) -/

theorem stageLegal_rdPoll_iff {n : Word} {st : Stage} : stageLegal (.rdPoll n) st = true ↔ st = .readout := beq_iff_eq

section
variable {n : Word} {s u : State} (hstage : s.stage = .readout)
include hstage

theorem exec_rdPoll_of_readFails {j : Nat} (h : s.answerRx = (.fail j, u)) :
    exec (.rdPoll n) s = .next { s with
      rxq := s.rxq.drop (min j (s.pollCount n))
      status := .transportError
      errInfo := 1
      rxAnswers := u.rxAnswers
      freeAnswers := u.freeAnswers } := by
  rw [exec, execRdPoll, gated_of_legal (stageLegal_rdPoll_iff.mpr hstage), rxRead_of_fail _ (congrArg Prod.fst h), h]

/-- The bytes read are `m` many, since RXQ holds as many. -/
theorem exec_rdPoll_of_read {t : State} {hits errs : Nat} (h : s.answerRx = (.ok, u))
    (hdec : decBytes (s.rxq.take (s.pollCount n)) { u with rxq := s.rxq.drop (s.pollCount n) } 0 0 = (t, hits, errs)) :
    exec (.rdPoll n) s = .next { s with
      r := { s.r with
        r0 := BitVec.ofNat 32 (s.pollCount n), r1 := BitVec.ofNat 32 hits, r2 := BitVec.ofNat 32 errs }
      rxq := s.rxq.drop (s.pollCount n)
      decState := t.decState
      fbuf := t.fbuf
      skipping := t.skipping
      syncLossCount := t.syncLossCount
      lastDecCause := t.lastDecCause
      hitq := t.hitq
      errCount := t.errCount
      runCount := satInc s.runCount
      stage := if s.errMax.toNat < t.errCount.toNat ∨
        (s.maxRunsEn = true ∧ s.maxRuns.toNat ≤ (satInc s.runCount).toNat) then .closed else .readout
      termCause := if s.errMax.toNat < t.errCount.toNat then .budgetExceeded
        else if s.maxRunsEn = true ∧ s.maxRuns.toNat ≤ (satInc s.runCount).toNat then .maxrunsReached
        else s.termCause
      status := .ok
      errInfo := 0
      rxAnswers := u.rxAnswers
      freeAnswers := u.freeAnswers } := by
  have hcount : (s.rxq.take (s.pollCount n)).length = s.pollCount n := by
    rw [List.length_take, State.pollCount]; omega
  have hanswer : s.answerRx.1 = .ok := congrArg Prod.fst h
  obtain ⟨ra, fa, rfl⟩ := exists_draws_of_answerRx h
  rw [exec, execRdPoll, gated_of_legal (stageLegal_rdPoll_iff.mpr hstage), rxRead_of_ok _ hanswer, h]
  dsimp only at hdec
  simp only [polled_eq, hdec, hcount, closeAfterPoll_eq]
  rw [hstage]
  rfl

end

/-- Settles O40: the word, the gate, and the two outcomes of the read. -/
theorem rdPollCommandRule : Obligations.RdPollCommandRule := fun _ _ =>
  ⟨fun _ => decode_eq_ok_iff_encode,
    fun hstage => exec_of_illegal_stage (mt stageLegal_rdPoll_iff.mp hstage),
    fun _ _ hstage => exec_rdPoll_of_readFails hstage,
    fun _ _ _ _ hstage => exec_rdPoll_of_read hstage⟩

end Sys2Proof.Machine
end

section
/-! The Injection Controller (spec/44_injection.md): the first field out of range (R191), each outcome of a command as
one equation (R193 to R199), and what injection and readout leave of each other (R200). -/

namespace Sys2Proof.Machine

/-! ### The fields (R34, R191, R193) -/

/-- A search through a list whose keys rise answers the hit with the smallest key. -/
theorem find?_eq_some_iff_of_pairwise_lt {α : Type} {key : α → Nat} {q : α → Bool} {l : List α}
    (hl : l.Pairwise (key · < key ·)) {a : α} :
    l.find? q = some a ↔ a ∈ l ∧ q a = true ∧ ∀ b ∈ l, key b < key a → ¬ q b = true := by
  rw [List.find?_eq_some_iff_append]
  constructor
  · rintro ⟨ha, before, after, rfl, hbefore⟩
    obtain ⟨-, hafter, -⟩ := List.pairwise_append.mp hl
    refine ⟨List.mem_append_cons_self, ha, fun b hb hlt => ?_⟩
    rcases List.mem_append.mp hb with hb | hb
    · simpa using hbefore b hb
    · rcases List.mem_cons.mp hb with rfl | hb
      · exact absurd hlt (Nat.lt_irrefl _)
      · exact absurd hlt (Nat.lt_asymm (List.rel_of_pairwise_cons hafter hb))
  · rintro ⟨hmem, ha, hfirst⟩
    obtain ⟨before, after, rfl⟩ := List.append_of_mem hmem
    obtain ⟨-, -, hcross⟩ := List.pairwise_append.mp hl
    refine ⟨ha, before, after, rfl, fun b hb => ?_⟩
    simpa using hfirst b (List.mem_append_left _ hb) (hcross b hb a List.mem_cons_self)

theorem mem_injFieldsInOrder (f : InjField) : f ∈ injFieldsInOrder := by cases f <;> decide

theorem injFieldsInOrder_pairwise :
    injFieldsInOrder.Pairwise fun f g => (injFieldId f).toNat < (injFieldId g).toNat := by
  decide

/-- ERR_INFO reports a field by its id (R221). -/
theorem injFieldInfo_eq_setWidth (f : InjField) : injFieldInfo f = (injFieldId f).setWidth 32 := by cases f <;> rfl

theorem InjFields.get_set (x : InjFields) (f g : InjField) (v : Word) :
    (x.set f v).get g = if g = f then v else x.get g := by
  cases f <;> cases g <;> rfl

theorem injOutOfRange_eq_true_iff {p : Params} {x : InjFields} {f : InjField} :
    injOutOfRange p x f = true ↔ (x.get f).toInt < 0 ∨ injMax p f < (x.get f).toInt := by
  simp [injOutOfRange]

theorem injCheck_eq_none_iff {s : State} :
    s.injCheck = none ↔ ∀ f, ¬ injOutOfRange s.params s.injF f = true := by
  simp [State.injCheck, List.find?_eq_none, mem_injFieldsInOrder]

theorem injCheck_eq_some_iff {s : State} {f : InjField} :
    s.injCheck = some f ↔ injOutOfRange s.params s.injF f = true ∧
      ∀ g, (injFieldId g).toNat < (injFieldId f).toNat → ¬ injOutOfRange s.params s.injF g = true := by
  rw [State.injCheck, find?_eq_some_iff_of_pairwise_lt injFieldsInOrder_pairwise]
  simp only [mem_injFieldsInOrder, true_and, forall_const]

/-- Settles O42: `inj_check` searches the fields in the order of their ids, for one outside the range of the
statement. -/
theorem injCheckReportsTheFirstBadField : Obligations.InjCheckReportsTheFirstBadField := by
  intro s width bad
  have hbad (f : InjField) : injOutOfRange s.params s.injF f = true ↔ bad f := by
    rw [injOutOfRange_eq_true_iff]
    cases f <;> simp [bad, width, injMax]
  simp only [injCheck_eq_none_iff, injCheck_eq_some_iff, hbad, implies_true, and_self]

/-! ### The stage gate (R232) -/

section
variable {st : Stage}

theorem stageLegal_injInit_iff : stageLegal .injInit st = true ↔ st = .voltDone := beq_iff_eq

theorem stageLegal_injStart_iff : stageLegal .injStart st = true ↔ st = .injDone ∨ st = .readout := by
  simp [stageLegal]

theorem stageLegal_injStop_iff : stageLegal .injStop st = true ↔ st = .injDone ∨ st = .readout ∨ st = .closed := by
  simp [stageLegal, or_assoc]

end

/-! ### INJ.SET and INJ.STOP (R193, R199) -/

theorem exec_injSet (f : InjField) (v : Word) (s : State) :
    exec (.injSet f v) s = .next { s with injF := s.injF.set f v, status := .ok, errInfo := 0 } := by
  rw [exec, execInjSet, gated_of_legal rfl]
  rfl

section
variable {s : State} (hstage : s.stage = .injDone ∨ s.stage = .readout ∨ s.stage = .closed)
include hstage

theorem exec_injStop_of_injecting (hinj : s.injState = .injecting) :
    exec .injStop s = .next { s with
      injEn := false, out := s.out ++ [.injEn false], injState := .idle, status := .ok, errInfo := 0 } := by
  rw [exec, execInjStop, gated_of_legal (stageLegal_injStop_iff.mpr hstage), if_pos hinj]
  rfl

theorem exec_injStop_of_not_injecting (hinj : s.injState ≠ .injecting) :
    exec .injStop s = .next { s with status := .ok, errInfo := 0 } := by
  rw [exec, execInjStop, gated_of_legal (stageLegal_injStop_iff.mpr hstage), if_neg hinj]
  rfl

end

/-- Settles O43: the two words, the one field that INJ.SET writes, and of INJ.STOP the gate and the two outcomes past
it. -/
theorem injSetAndInjStopCommandRules : Obligations.InjSetAndInjStopCommandRules := by
  refine ⟨fun f v s => ⟨fun _ => decode_eq_ok_iff_encode, _, exec_injSet f v s, rfl, ?written, fun g hg => ?kept⟩,
    fun _ => decode_eq_ok_iff_encode, fun s =>
      ⟨fun h4 h5 h6 => exec_of_illegal_stage ?gate, exec_injStop_of_injecting, exec_injStop_of_not_injecting⟩⟩
  case written => exact (InjFields.get_set ..).trans (if_pos rfl)
  case kept => exact (InjFields.get_set ..).trans (if_neg hg)
  case gate =>
    rw [stageLegal_injStop_iff]
    exact not_or.mpr ⟨h4, not_or.mpr ⟨h5, h6⟩⟩

/-! ### INJ.INIT (R195) -/

section
variable {s : State} (hstage : s.stage = .voltDone)
include hstage

theorem exec_injInit_of_bad_field {f : InjField} (h : s.injCheck = some f) :
    exec .injInit s = .next { s with
      status := .injectionConfigError, errInfo := (injFieldId f).setWidth 32 } := by
  rw [exec, execInjInit, gated_of_legal (stageLegal_injInit_iff.mpr hstage), h, ← injFieldInfo_eq_setWidth]
  rfl

variable {u : State} (hcheck : s.injCheck = none)
include hcheck

theorem exec_injInit_of_writeFails {k : Nat} (h : s.answerTx = (.fail k, u)) :
    exec .injInit s = .next { s with
      out := s.out ++ ((tobytes s.injDacBits).take k).map Event.txByte
      status := .transportError
      errInfo := 0
      txAnswers := u.txAnswers
      freeAnswers := u.freeAnswers } := by
  rw [exec, execInjInit, gated_of_legal (stageLegal_injInit_iff.mpr hstage), hcheck,
    srWrite_of_fail _ _ _ (congrArg Prod.fst h), h]

theorem exec_injInit_of_ok (h : s.answerTx = (.ok, u)) :
    exec .injInit s = .next { s with
      out := s.out ++ (tobytes s.injDacBits).map Event.txByte ++
        [.latch .injectionDac s.injSlot true, .latch .injectionDac s.injSlot false]
      latch := false
      latchT := .injectionDac
      latchP := s.injSlot
      stage := .injDone
      status := .ok
      errInfo := 0
      txAnswers := u.txAnswers
      freeAnswers := u.freeAnswers } := by
  rw [exec, execInjInit, gated_of_legal (stageLegal_injInit_iff.mpr hstage), hcheck,
    srWrite_of_ok _ _ _ (congrArg Prod.fst h), h]
  rfl

end

/-- Settles O44: the word, the gate, the check before the write, and the two outcomes of the write. -/
theorem injInitCommandRule : Obligations.InjInitCommandRule :=
  ⟨fun _ => decode_eq_ok_iff_encode, fun _ =>
    ⟨fun hstage => exec_of_illegal_stage (mt stageLegal_injInit_iff.mp hstage),
      fun _ hstage => exec_injInit_of_bad_field hstage,
      fun _ _ hstage hcheck => exec_injInit_of_writeFails hstage hcheck,
      fun _ hstage hcheck => exec_injInit_of_ok hstage hcheck⟩⟩

/-! ### INJ.START (R197, R198) -/

section
variable {s : State} (hstage : s.stage = .injDone ∨ s.stage = .readout)
include hstage

theorem exec_injStart_of_injecting (hinj : s.injState = .injecting) :
    exec .injStart s = .next { s with status := .ok, errInfo := 0 } := by
  rw [exec, execInjStart, gated_of_legal (stageLegal_injStart_iff.mpr hstage), if_pos hinj]
  rfl

variable (hinj : s.injState ≠ .injecting)
include hinj

theorem exec_injStart_of_bad_field {f : InjField} (h : s.injCheck = some f) :
    exec .injStart s = .next { s with
      status := .injectionConfigError, errInfo := (injFieldId f).setWidth 32 } := by
  rw [exec, execInjStart, gated_of_legal (stageLegal_injStart_iff.mpr hstage), if_neg hinj, h,
    ← injFieldInfo_eq_setWidth]
  rfl

variable {u : State} (hcheck : s.injCheck = none)
include hcheck

theorem exec_injStart_of_writeFails {k : Nat} (h : s.answerTx = (.fail k, u)) :
    exec .injStart s = .next { s with
      out := s.out ++ ((tobytes s.injTimingBits).take k).map Event.txByte
      status := .transportError
      errInfo := 0
      txAnswers := u.txAnswers
      freeAnswers := u.freeAnswers } := by
  rw [exec, execInjStart, gated_of_legal (stageLegal_injStart_iff.mpr hstage), if_neg hinj, hcheck,
    srWrite_of_fail _ _ _ (congrArg Prod.fst h), h]

theorem exec_injStart_of_ok (h : s.answerTx = (.ok, u)) :
    exec .injStart s = .next { s with
      out := s.out ++ (tobytes s.injTimingBits).map Event.txByte ++
        [.latch .injectionTiming s.injSlot true, .latch .injectionTiming s.injSlot false, .injEn true]
      latch := false
      latchT := .injectionTiming
      latchP := s.injSlot
      injState := .injecting
      injEn := true
      status := .ok
      errInfo := 0
      txAnswers := u.txAnswers
      freeAnswers := u.freeAnswers } := by
  rw [exec, execInjStart, gated_of_legal (stageLegal_injStart_iff.mpr hstage), if_neg hinj, hcheck,
    srWrite_of_ok _ _ _ (congrArg Prod.fst h), h]
  simp only [State.startInjecting_eq, List.append_assoc]
  rfl

end

/-- Settles O45: the word, the gate, the no-op before the check, the check before the write, and the two outcomes of the
write. -/
theorem injStartCommandRule : Obligations.InjStartCommandRule := by
  refine ⟨fun _ => decode_eq_ok_iff_encode, fun s =>
    ⟨fun h4 h5 => exec_of_illegal_stage ?gate,
      exec_injStart_of_injecting,
      fun _ hstage hinj => exec_injStart_of_bad_field hstage hinj,
      fun _ _ hstage hinj hcheck => exec_injStart_of_writeFails hstage hinj hcheck,
      fun _ hstage hinj hcheck => exec_injStart_of_ok hstage hinj hcheck⟩⟩
  rw [stageLegal_injStart_iff]
  exact not_or.mpr ⟨h4, h5⟩

/-- An INJ.START that succeeded was legal and has left the controller Injecting with a status of success. -/
theorem injecting_of_exec_injStart_ok {s t : State} (h : exec .injStart s = .next t) (hok : t.status = .ok) :
    (t.stage = .injDone ∨ t.stage = .readout) ∧ t.injState = .injecting ∧ t.errInfo = 0 := by
  cases exec_ran h with
  | gate => cases hok
  | fault _ _ c _ hc =>
    obtain rfl : c = .ok := hok
    cases hc
  | writeFail => cases hok
  | injStartAgain _ hstage hinj => exact ⟨hstage, hinj, rfl⟩
  | injStart _ _ _ hstage => exact ⟨hstage, rfl, rfl⟩

/-- Settles O46: the second INJ.START finds the controller Injecting, and writes the STATUS and ERR_INFO that are
there. -/
theorem injStartTwiceEnablesOnce : Obligations.InjStartTwiceEnablesOnce := by
  intro s t h hok
  obtain ⟨hstage, hinj, hinfo⟩ := injecting_of_exec_injStart_ok h hok
  rw [exec_injStart_of_injecting hstage hinj, ← hok, ← hinfo]

/-! ### Injection and readout (R200) -/

@[simp] theorem polled_injState (s : State) (bs : List Byte) : (s.polled bs).injState = s.injState := by
  rw [polled_eq, closeAfterPoll_eq]

@[simp] theorem polled_injEn (s : State) (bs : List Byte) : (s.polled bs).injEn = s.injEn := by
  rw [polled_eq, closeAfterPoll_eq]

@[simp] theorem polled_injF (s : State) (bs : List Byte) : (s.polled bs).injF = s.injF := by
  rw [polled_eq, closeAfterPoll_eq]

/-- What INJ.START and INJ.STOP may write: the outcome, the signals of injection, OUT and the draws. -/
def SameButInjection (s t : State) : Prop :=
  t = { s with
    status := t.status
    errInfo := t.errInfo
    injState := t.injState
    injEn := t.injEn
    latch := t.latch
    latchT := t.latchT
    latchP := t.latchP
    out := t.out
    txAnswers := t.txAnswers
    freeAnswers := t.freeAnswers }

theorem exec_injStart_frame {s t : State} (h : exec .injStart s = .next t) : SameButInjection s t := by
  cases exec_ran h <;> rfl

theorem exec_injStop_frame {s t : State} (h : exec .injStop s = .next t) : SameButInjection s t := by
  cases exec_ran h <;> rfl

/-- Settles O54: no element of the readout is among those that INJ.START and INJ.STOP write, and each way RD.POLL can
end leaves the injection as it was. -/
theorem injectionAndReadoutAreIndependent : Obligations.InjectionAndReadoutAreIndependent := by
  refine ⟨fun i s t hi h => ?injection, fun n s t h => ?readout⟩
  case injection =>
    have hframe : SameButInjection s t := by
      rcases hi with rfl | rfl
      · exact exec_injStart_frame h
      · exact exec_injStop_frame h
    rw [hframe]
    exact ⟨rfl, rfl, rfl, rfl, rfl, rfl, rfl, rfl, rfl⟩
  case readout =>
    cases exec_ran h with
    | rdPoll => exact ⟨polled_injState .., polled_injEn .., polled_injF ..⟩
    | gate => exact ⟨rfl, rfl, rfl⟩
    | fault => exact ⟨rfl, rfl, rfl⟩
    | writeFail => exact ⟨rfl, rfl, rfl⟩
    | rdPollFail => exact ⟨rfl, rfl, rfl⟩

end Sys2Proof.Machine
end

section
/-! The Error Budget (spec/45_error_budget.md): the one outcome of each of its two commands past the gate (R213, R214),
and what every other command does to ERR_COUNT and ERRMAX (R210, R216). -/

namespace Sys2Proof.Machine

/-! ### ERR.RECORD and ERR.EXCEEDED (R213, R214) -/

/-- The count that R212 writes is the only word with the value the rule states. -/
theorem eq_satInc_iff {n : Nat} {c v : BitVec n} : c = satInc v ↔ c.toNat = min (v.toNat + 1) (2 ^ n - 1) := by
  rw [← BitVec.toNat_inj, satInc_toNat]

theorem stageLegal_errRecord_iff {st : Stage} : stageLegal .errRecord st = true ↔ st ≠ .reset ∧ st ≠ .closed :=
  isOpen_eq_true_iff

theorem exec_errRecord_of_open {s : State} (h0 : s.stage ≠ .reset) (h6 : s.stage ≠ .closed) :
    exec .errRecord s = .next { s with
      errCount := satInc s.errCount
      r := { s.r with r0 := satInc s.errCount }
      stage := if s.errMax.toNat < (satInc s.errCount).toNat then .closed else s.stage
      termCause := if s.errMax.toNat < (satInc s.errCount).toNat then .budgetExceeded else s.termCause
      status := .ok
      errInfo := 0 } := by
  rw [exec, execErrRecord, gated_of_legal (stageLegal_errRecord_iff.mpr ⟨h0, h6⟩), closeIfExceeded_eq]
  rfl

theorem exec_errExceeded (s : State) :
    exec .errExceeded s = .next { s with
      r := { s.r with r0 := if s.errMax.toNat < s.errCount.toNat then 1 else 0 }, status := .ok, errInfo := 0 } := by
  have hword : boolWord s.exceeded = if s.errMax.toNat < s.errCount.toNat then 1 else 0 := by
    simp [boolWord, State.exceeded]
  rw [exec, execErrExceeded, gated_of_legal rfl, hword]
  rfl

/-- Settles O47: the two words, the gate of ERR.RECORD and its one outcome past it, and the one outcome of
ERR.EXCEEDED. -/
theorem errorBudgetCommandRules : Obligations.ErrorBudgetCommandRules := by
  refine ⟨⟨fun _ => decode_eq_ok_iff_encode, fun s => ⟨fun hstage => exec_of_illegal_stage ?gate,
      fun c h0 h6 hc => ?counted⟩⟩,
    fun _ => decode_eq_ok_iff_encode, exec_errExceeded⟩
  case gate =>
    rw [stageLegal_errRecord_iff]
    tauto
  case counted =>
    obtain rfl := eq_satInc_iff.mpr hc
    exact exec_errRecord_of_open h0 h6

/-! ### ERR_COUNT and ERRMAX over all commands (R210, R216) -/

@[simp] theorem polled_errMax (s : State) (bs : List Byte) : (s.polled bs).errMax = s.errMax := by
  rw [polled_eq, closeAfterPoll_eq]

theorem errCount_le_polled (s : State) (bs : List Byte) : s.errCount.toNat ≤ (s.polled bs).errCount.toNat := by
  rw [polled_eq, closeAfterPoll_eq]
  exact decBytes_errCount_le bs s 0 0

/-- Of the ways a command other than SESS.INIT can end, only those of RD.POLL and ERR.RECORD write ERR_COUNT, and both
count up; none writes ERRMAX. -/
theorem ran_errorBudget {i : Instr} {s t : State} (h : Ran i s t) (hi : ∀ en m e, i ≠ .sessInit en m e) :
    s.errCount.toNat ≤ t.errCount.toNat ∧ t.errMax = s.errMax := by
  cases h with
  | sessInit _ en m e => exact absurd rfl (hi en m e)
  | errRecord => exact ⟨le_satInc _, rfl⟩
  | rdPoll _ n ra fa =>
    exact ⟨errCount_le_polled { s with rxq := s.rxq.drop (s.pollCount n), rxAnswers := ra, freeAnswers := fa } _,
      polled_errMax ..⟩
  | _ => exact ⟨Nat.le_refl _, rfl⟩

/-- Settles O48: every next state of `exec` is one of the ways a command can end. -/
theorem onlySessInitLowersTheErrorCount : Obligations.OnlySessInitLowersTheErrorCount :=
  fun _ _ _ h => ran_errorBudget (exec_ran h)

end Sys2Proof.Machine
end

section
/-! Precise faults and the stage gate over all commands (spec/60_exceptions.md R225, R232): each a case split over the
ways a command can end (`Ran`), and the table of R232 row by row. -/

namespace Sys2Proof.Machine

/-! ### Precise faults (R225) -/

/-- Settles O49: the two ways to end with a precise fault, the stage gate and a fault of the command itself, write
STATUS and ERR_INFO alone; every other way to end is a success or a failed transport call, and a hold of REG.READ is no
end. -/
theorem preciseFaultsChangeOnlyStatus : Obligations.PreciseFaultsChangeOnlyStatus := by
  intro i s t _ h hended hprecise
  cases exec_ran h with
  | gate => rfl
  | fault => rfl
  | held => cases hended
  | _ => cases hprecise

/-! ### The stage gate (R232) -/

/-- Past the gate nothing raises StageError (R221, R231). -/
theorem status_ne_stageError_of_legal {i : Instr} {s t : State} (hlegal : stageLegal i s.stage = true)
    (h : exec i s = .next t) (hended : t.busy = false) : t.status ≠ .stageError := by
  cases exec_ran h with
  | gate _ _ hillegal => exact absurd hlegal (Bool.eq_false_iff.mp hillegal)
  | fault _ _ _ _ _ hcause => exact hcause
  | held => cases hended
  | _ => exact Cause.noConfusion

/-- The rule of the gate, for any way to say which stages are legal. -/
theorem exec_gate_of_legal_iff {i : Instr} {s : State} {legal : Prop} (h : legal ↔ stageLegal i s.stage = true) :
    (¬ legal → exec i s = .next { s with status := .stageError, errInfo := s.stage.code.setWidth 32 }) ∧
    (legal → s.busy = false → ∀ t, exec i s = .next t → t.busy = false → t.status ≠ .stageError) :=
  ⟨fun hillegal => exec_of_illegal_stage (mt h.mpr hillegal),
    fun hlegal _ _ => status_ne_stageError_of_legal (h.mp hlegal)⟩

section
variable {st : Stage}

/-- Stages 1 to 5 as the table of R232 marks them. -/
theorem mem_openStages_iff :
    st ∈ [Stage.inited, .asicDone, .voltDone, .injDone, .readout] ↔ st ≠ .reset ∧ st ≠ .closed := by
  cases st <;> decide

/-- Stages 1 to 4, the marks of REG.READ. -/
theorem mem_regReadStages_iff :
    st ∈ [Stage.inited, .asicDone, .voltDone, .injDone] ↔ st ≠ .reset ∧ st ≠ .readout ∧ st ≠ .closed := by
  cases st <;> decide

end

/-- Settles O50: the marks of the table are the stages that `stageLegal` takes, row by row, and the gate does the
rest. -/
theorem stageGateTable : Obligations.StageGateTable := by
  refine ⟨fun i s => exec_gate_of_legal_iff ?marks, by decide, by decide⟩
  cases i with
  | asicInit => exact List.mem_singleton.trans stageLegal_asicInit_iff.symm
  | vbInit => exact List.mem_singleton.trans stageLegal_vbInit_iff.symm
  | injInit => exact List.mem_singleton.trans stageLegal_injInit_iff.symm
  | spiEnable => exact List.mem_singleton.trans stageLegal_spiEnable_iff.symm
  | regRead => exact mem_regReadStages_iff.trans stageLegal_regRead_iff.symm
  | rdProbe => exact mem_openStages_iff.trans stageLegal_rdProbe_iff.symm
  | rdPoll => exact List.mem_singleton.trans stageLegal_rdPoll_iff.symm
  | injStart => exact List.mem_pair.trans stageLegal_injStart_iff.symm
  | injStop => simp [stageLegal_injStop_iff]
  | errRecord => exact mem_openStages_iff.trans stageLegal_errRecord_iff.symm
  | sessClose => exact mem_openStages_iff.trans stageLegal_sessClose_iff.symm
  | _ => exact iff_of_true trivial rfl

end Sys2Proof.Machine
end
